-- ==== Sys2Proof/Word.lean ====
section
/-! DEFINITION. The widths of the block's ports (10_state.md R21, R26; 00_scope.md R5, section 5). -/

namespace Sys2Proof

/-- An 8-bit pattern: the command byte, or the weight of LERP8. -/
abbrev Byte := BitVec 8

/-- A 16-bit pattern: the ports `a`, `b` and `y` (00_scope.md R5). -/
abbrev Word16 := BitVec 16

/-- A 32-bit pattern: the port `w`. -/
abbrev Word32 := BitVec 32

end Sys2Proof
end

