-- ==== Sys2Proof/Config.lean ====
section
/-! DEFINITION. What is fixed for one block instance: the four configuration parameters (00_scope.md R7 to R11), the
two open parameters (R12), and the free values the spec leaves unspecified (10_state.md R26, 70_reset_and_hazards.md
R172). -/

namespace Sys2Proof

/-- The ALG axis: which datapath an instance builds (00_scope.md R10). -/
inductive Alg
  | wide
  | limb
  deriving DecidableEq, Repr

/-- The four elaboration-time parameters of one instance (00_scope.md R7). -/
structure Config where
  /-- OVF_CHECK (R8) -/
  ovfCheck : Bool
  /-- ROUNDING (R9) -/
  rounding : Bool
  /-- ALG (R10) -/
  alg : Alg
  /-- WIDE_ACC (R11) -/
  wideAcc : Bool
  deriving DecidableEq, Repr

/-- The default configuration (00_scope.md R13). -/
def Config.standard : Config :=
  { ovfCheck := true, rounding := true, alg := .wide, wideAcc := true }

/-- LERP32_NARROW: the result of LERP32 when WIDE_ACC = false. "A model assumes nothing of this function beyond
totality" (00_scope.md R12, 45_interpolate.md R145). FREE VALUE, log entry 10. -/
opaque Config.lerp32Narrow : Word16 → Word16 → Word32 → Word16

/-- By how many cycles LATENCY exceeds 1, for a command byte. FREE VALUE, log entry 9. -/
opaque Config.extraCycles : Byte → Nat

/-- LATENCY, "at least 1": the cycles from acceptance of a request to its response (00_scope.md R12). DESIGN CHOICE:
it is a function of the whole command byte, so that a request that names no operation has one too (log entry 9). -/
def Config.latency (cmd : Byte) : Nat := Config.extraCycles cmd + 1

/-- The 16-bit free values: `y` where the spec leaves it unspecified. FREE VALUE, log entry 3. -/
opaque Config.freeWord : Nat → Word16

/-- The 1-bit free values: `ill` where the spec leaves it unspecified. FREE VALUE, log entry 3. -/
opaque Config.freeBit : Nat → Bool

end Sys2Proof
end

