-- ==== Sys2Proof/Syntax.lean ====
section
/-! DEFINITION. Requests, responses and the twelve operations (10_state.md R21, R26; 30_encoding.md R50, R51, R57). -/

namespace Sys2Proof

/-- The four values of the request port, sampled together (10_state.md R21). -/
structure Request where
  cmd : Byte
  a   : Word16
  b   : Word16
  w   : Word32
  deriving DecidableEq, Repr

/-- The two values of the response port (10_state.md R26). -/
structure Response where
  y   : Word16
  ill : Bool
  deriving DecidableEq, Repr

/-- The causes of an ILLEGAL response (60_exceptions.md R151, R152). -/
inductive IllegalCause
  /-- `cmd[7:4]` is not zero (R151, 30_encoding.md R53). -/
  | reservedBits
  /-- `cmd[3:0]` names no operation (R151, 30_encoding.md R52). -/
  | reservedOp
  /-- A saturating operation without overflow checking (R152). -/
  | satWithoutOvfCheck
  deriving DecidableEq, Repr

/-- One operation with its operands, as the text form of 30_encoding.md R57 writes it: `MNEMONIC a, b` or
`MNEMONIC a, b, f`. One constructor per row of the opcode table. The weight has exactly the bits the operation reads
(R55), so every term is a request the block can be given. -/
inductive Instr
  | add    (a b : Word16)
  | sub    (a b : Word16)
  | sadd   (a b : Word16)
  | ssub   (a b : Word16)
  | mul    (a b : Word16)
  | smul   (a b : Word16)
  | div    (a b : Word16)
  | sdiv   (a b : Word16)
  | mod    (a b : Word16)
  | lerp8  (a b : Word16) (f : Byte)
  | lerp16 (a b : Word16) (f : Word16)
  | lerp32 (a b : Word16) (f : Word32)
  deriving DecidableEq, Repr

end Sys2Proof
end

