-- ==== Sys2Proof/WellFormed.lean ====
section
/-! DEFINITION. Which requests name an operation (30_encoding.md R52, R53), and which operations an instance offers
(60_exceptions.md R152). Every term of `Instr` is itself well formed: its fields are the ports' own widths (R54, R55). -/

namespace Sys2Proof

/-- `cmd[7:4] = 0000` (30_encoding.md R53). -/
def Request.reservedBitsClear (r : Request) : Bool :=
  r.cmd.extractLsb' 4 4 == 0#4

/-- `cmd[3:0]` is none of the reserved codes 0x0, 0xD, 0xE and 0xF (30_encoding.md R52). -/
def Request.opAssigned (r : Request) : Bool :=
  !([0x0#4, 0xD#4, 0xE#4, 0xF#4].contains (r.cmd.extractLsb' 0 4))

/-- The request's command byte is one of the twelve operations (30_encoding.md R58). -/
def Request.wellFormed (r : Request) : Bool :=
  r.reservedBitsClear && r.opAssigned

/-- The four operations defined through the overflow report of their plain form (60_exceptions.md R152). -/
def Instr.saturating : Instr → Bool
  | .add _ _      => false
  | .sub _ _      => false
  | .sadd _ _     => true
  | .ssub _ _     => true
  | .mul _ _      => false
  | .smul _ _     => true
  | .div _ _      => false
  | .sdiv _ _     => true
  | .mod _ _      => false
  | .lerp8 _ _ _  => false
  | .lerp16 _ _ _ => false
  | .lerp32 _ _ _ => false

/-- An instance answers the operation: it is not a saturating one, or OVF_CHECK = true (60_exceptions.md R152). -/
def Instr.availableIn (cfg : Config) (i : Instr) : Bool :=
  !i.saturating || cfg.ovfCheck

end Sys2Proof
end

