-- ==== Sys2Proof/Decode.lean ====
section
/-! DEFINITION. From the request port to an operation, and back (30_encoding.md R50 to R56); the request as one number
of 72 bits and the response as one of 17 (20_memory.md R43). -/

namespace Sys2Proof

/-- `rsv = cmd[7:4]` (30_encoding.md R50). -/
def Request.rsvField (r : Request) : BitVec 4 := r.cmd.extractLsb' 4 4

/-- `op = cmd[3:0]` (30_encoding.md R50). -/
def Request.opField (r : Request) : BitVec 4 := r.cmd.extractLsb' 0 4

/-- LERP8 reads `w[7:0]` (30_encoding.md R55). -/
def Request.weight8 (r : Request) : Byte := r.w.extractLsb' 0 8

/-- LERP16 reads `w[15:0]` (30_encoding.md R55). -/
def Request.weight16 (r : Request) : Word16 := r.w.extractLsb' 0 16

/-- LERP32 reads all of `w` (30_encoding.md R55). -/
def Request.weight32 (r : Request) : Word32 := r.w

/-- The operation map of 30_encoding.md R51. -/
def decodeOp (r : Request) : Except IllegalCause Instr :=
  match r.opField.toNat with
  | 0x1 => .ok (.add r.a r.b)
  | 0x2 => .ok (.sub r.a r.b)
  | 0x3 => .ok (.sadd r.a r.b)
  | 0x4 => .ok (.ssub r.a r.b)
  | 0x5 => .ok (.mul r.a r.b)
  | 0x6 => .ok (.smul r.a r.b)
  | 0x7 => .ok (.div r.a r.b)
  | 0x8 => .ok (.sdiv r.a r.b)
  | 0x9 => .ok (.mod r.a r.b)
  | 0xA => .ok (.lerp8 r.a r.b r.weight8)
  | 0xB => .ok (.lerp16 r.a r.b r.weight16)
  | 0xC => .ok (.lerp32 r.a r.b r.weight32)
  | _   => .error .reservedOp

/-- The decoder: reserved bits first, then the code (60_exceptions.md R155, steps 1 and 2). -/
def decode (r : Request) : Except IllegalCause Instr :=
  if r.rsvField = 0#4 then decodeOp r else .error .reservedBits

/-! The encoder, from the same table. -/

/-- The command byte `{0000, op}` of an operation (30_encoding.md R51, R57). -/
def Instr.command : Instr → Byte
  | .add _ _      => 0x01#8
  | .sub _ _      => 0x02#8
  | .sadd _ _     => 0x03#8
  | .ssub _ _     => 0x04#8
  | .mul _ _      => 0x05#8
  | .smul _ _     => 0x06#8
  | .div _ _      => 0x07#8
  | .sdiv _ _     => 0x08#8
  | .mod _ _      => 0x09#8
  | .lerp8 _ _ _  => 0x0A#8
  | .lerp16 _ _ _ => 0x0B#8
  | .lerp32 _ _ _ => 0x0C#8

/-- The request that asks for an operation. Port bits the operation does not read are written as zero; any value
would do (30_encoding.md R56). -/
def encode (i : Instr) : Request :=
  match i with
  | .add a b      => ⟨i.command, a, b, 0#32⟩
  | .sub a b      => ⟨i.command, a, b, 0#32⟩
  | .sadd a b     => ⟨i.command, a, b, 0#32⟩
  | .ssub a b     => ⟨i.command, a, b, 0#32⟩
  | .mul a b      => ⟨i.command, a, b, 0#32⟩
  | .smul a b     => ⟨i.command, a, b, 0#32⟩
  | .div a b      => ⟨i.command, a, b, 0#32⟩
  | .sdiv a b     => ⟨i.command, a, b, 0#32⟩
  | .mod a b      => ⟨i.command, a, b, 0#32⟩
  | .lerp8 a b f  => ⟨i.command, a, b, f.setWidth 32⟩
  | .lerp16 a b f => ⟨i.command, a, b, f.setWidth 32⟩
  | .lerp32 a b f => ⟨i.command, a, b, f⟩

/-! Requests and responses as single numbers. -/

/-- The 72 bits of a request as one number, in port order from bit 0: `cmd`, `a`, `b`, `w` (20_memory.md R43). The
ports are parallel and the order is the model's own (DESIGN CHOICE, log entry 5). -/
def Request.toBits (r : Request) : BitVec 72 :=
  r.w ++ r.b ++ r.a ++ r.cmd

/-- The request that 72 bits hold. -/
def Request.ofBits (v : BitVec 72) : Request :=
  { cmd := v.extractLsb' 0 8, a := v.extractLsb' 8 16, b := v.extractLsb' 24 16, w := v.extractLsb' 40 32 }

/-- The 17 bits of a response as one number: `y` below `ill` (20_memory.md R43; the order is the model's own, log
entry 5). -/
def Response.toBits (p : Response) : BitVec 17 :=
  BitVec.ofBool p.ill ++ p.y

/-- The response that 17 bits hold. -/
def Response.ofBits (v : BitVec 17) : Response :=
  { y := v.extractLsb' 0 16, ill := v.getLsbD 16 }

/-- The request whose low `nbits` bits are those of `w` and whose other bits are zero. -/
def Request.ofTableWord (nbits w : Nat) : Request :=
  Request.ofBits (BitVec.ofNat 72 (w % 2 ^ nbits))

/-- What the decoder reads from a word of the opcode table. -/
def decodeTableWord (nbits w : Nat) : Option Instr :=
  (decode (Request.ofTableWord nbits w)).toOption

end Sys2Proof
end

