-- ==== Sys2Proof/Machine/State.lean ====
section
/-! DEFINITION. The state of one block instance and its host side (10_state.md section 5), and why a step can stop. -/

namespace Sys2Proof.Machine

/-- The handshake (70_reset_and_hazards.md R174): the block is idle, or busy with exactly one request, which it is
computing or whose response it is presenting. -/
inductive Phase
  /-- Ready to accept a request. -/
  | idle
  /-- Busy: `r` was accepted `elapsed` cycles ago and has no response yet. -/
  | computing (r : Request) (elapsed : Nat)
  /-- Busy: the response to `r` stands on `y` and `ill`, and the host has not taken it. -/
  | presenting (r : Request)
  deriving DecidableEq, Repr

/-- One block instance with its host side. The block holds no architectural state (10_state.md R20): the fields are
its parameters, its handshake, its response port and the requests that wait for it. -/
structure State where
  /-- The instance's parameters, which nothing changes (00_scope.md R7; log entry 1). -/
  cfg : Config
  /-- The requests the host offers and the block has not accepted, oldest first (70_reset_and_hazards.md R174). -/
  waiting : List Request
  /-- The handshake (70_reset_and_hazards.md R174). -/
  phase : Phase
  /-- The response port's result (10_state.md R26). -/
  y : Word16
  /-- The response port's ILLEGAL flag (10_state.md R26). -/
  ill : Bool
  /-- The model's own: which free value comes next (log entry 3). -/
  freeCount : Nat
  deriving DecidableEq, Repr

/-- Why a step stops with a fault. -/
inductive Fault
  /-- Raised by `raiseIllegal`, for a request that gets an ILLEGAL response: from `step` where the command byte names no
  operation, from the meanings of SADD, SSUB, SMUL and SDIV where OVF_CHECK = false. "A model treats an ILLEGAL response
  as a fault" (60_exceptions.md R150). Safe: the block itself goes on with its next request, and the model proves
  nothing of a run that got here (log entries 4 and 17). -/
  | illegal (cause : IllegalCause)
  deriving DecidableEq, Repr

/-- Why a step has no meaning. -/
inductive Refusal
  /-- Raised by `exec` alone, for an instruction without a meaning; no arm raises it now. Safe. -/
  | notModelled (mnemonic : String)
  deriving DecidableEq, Repr

/-- After reset: idle, nothing offered, the default configuration (70_reset_and_hazards.md R172, 00_scope.md R13). The
spec gives `y` and `ill` no value: DESIGN CHOICE zero (log entry 2). -/
def State.reset : State :=
  { cfg := Config.standard, waiting := [], phase := .idle, y := 0x0000#16, ill := false, freeCount := 0 }

end Sys2Proof.Machine
end

