-- ==== Sys2Proof/Machine/Ops.lean ====
section
/-! DEFINITION. The primitives of 00_scope.md section 5, the named constants of 10_state.md R27, the operations on the
ports and the handshake (70_reset_and_hazards.md R174), and the ILLEGAL response (60_exceptions.md R150). -/

namespace Sys2Proof.Machine

/-! Primitives of 00_scope.md section 5. -/

/-- `s16(v)`: the two's-complement value. -/
def s16 (v : Word16) : Int := v.toInt

/-- `u16(n)`: the pattern `n mod 65536`. -/
def u16 (n : Int) : Word16 := BitVec.ofInt 16 n

/-- `neg(v)`: `v[15] = 1`. -/
def neg (v : Word16) : Bool := v.msb

/-- `abs_u16(v)`: the 16-bit magnitude; `abs_u16(0x8000) = 0x8000`. -/
def absU16 (v : Word16) : Word16 := if neg v then u16 (-s16 v) else v

/-- `n >>a k`: `floor(n / 2^k)` (`/` on Int is the floor where the divisor is positive). -/
def sra (n : Int) (k : Nat) : Int := n / 2 ^ k

/-- `rha(n, d)`: round `n / d` to nearest, ties away from zero. -/
def rha (n : Int) (d : Nat) : Int := n.sign * (((2 * n.natAbs + d) / (2 * d) : Nat) : Int)

/-- `clamp(n, lo, hi)` at the ends of the Q7.8 range, as 41_saturating_add_sub.md R83 and 42_multiply.md R99 use it. -/
def clamp16 (n : Int) : Int := max (-32768) (min n 32767)

/-! Named constants (10_state.md R27). -/

/-- ONE, the value 1.0. -/
def one : Word16 := 0x0100#16

/-- MAX, the value +127.99609375. -/
def maxWord : Word16 := 0x7FFF#16

/-- MIN, the value −128.0. -/
def minWord : Word16 := 0x8000#16

/-- OVERFLOW_SENTINEL: it shares MIN's pattern (10_state.md R27, R28). -/
def sentinel : Word16 := 0x8000#16

/-- The real number a pattern stands for: `s16(v) / 256` (10_state.md R31). -/
def qvalue (v : Word16) : Rat := (s16 v : Rat) / 256

/-! The ports and the handshake. -/

/-- The response on the port (10_state.md R26). -/
def State.response (s : State) : Response := { y := s.y, ill := s.ill }

/-- The request the block is busy with, if any (70_reset_and_hazards.md R174). -/
def Phase.outstanding : Phase → Option Request
  | .idle          => none
  | .computing r _ => some r
  | .presenting r  => some r

/-- The phase once the outstanding request is answered. Where no answer is due, nothing changes (log entry 12). -/
def Phase.answered : Phase → Phase
  | .idle          => .idle
  | .computing r _ => .presenting r
  | .presenting r  => .presenting r

/-- The host offers a request; it waits until the block accepts it (70_reset_and_hazards.md R174). -/
def State.present (r : Request) (s : State) : State := { s with waiting := s.waiting ++ [r] }

/-- An idle block samples the oldest waiting request and becomes busy; a busy block accepts nothing
(70_reset_and_hazards.md R174). -/
def State.accept (s : State) : State :=
  match s.phase, s.waiting with
  | .idle, r :: rest => { s with waiting := rest, phase := .computing r 0 }
  | _, _             => s

/-- The host takes the presented response, and the block becomes idle (70_reset_and_hazards.md R174). What the port
shows from then on is not said: it keeps its values (DESIGN CHOICE, log entry 8). -/
def State.take (s : State) : State :=
  match s.phase with
  | .presenting _ => { s with phase := .idle }
  | _             => s

/-- `y <- v`: the response to the outstanding request, with `ill = 0` (00_scope.md section 5, 10_state.md R26). Nothing
else is written. -/
def State.respond (v : Word16) (s : State) : State :=
  { s with phase := s.phase.answered, y := v, ill := false }

/-- The ILLEGAL response on the port: `ill = 1` and `y` unspecified (60_exceptions.md R150): a free value (log
entry 3). -/
def State.respondIllegal (s : State) : State :=
  { s with phase := s.phase.answered, y := Config.freeWord s.freeCount, ill := true, freeCount := s.freeCount + 1 }

/-- `raise ILLEGAL(cause)` as a run sees it: a fault (60_exceptions.md R150). No trap entry and no return from one exist
(R156, R157): this is the whole of taking the block's one exception. -/
def raiseIllegal (cause : IllegalCause) : Host.Outcome State Fault Refusal := .fault (.illegal cause)

/-- Before a step computes: a presented response is taken, and an idle block accepts the next request. In this way a step
finds its instruction (70_reset_and_hazards.md R174, R176; log entry 7). -/
def State.fetch (s : State) : State := s.take.accept

/-- The phase in which the next step accepts a waiting request: an unanswered request is put aside (log entry 6). -/
def Phase.ready : Phase → Phase
  | .idle          => .idle
  | .computing _ _ => .idle
  | .presenting r  => .presenting r

/-- A request put first in line, so that the next step accepts it (log entry 6). -/
def State.withRequest (r : Request) (s : State) : State :=
  { s with waiting := r :: s.waiting, phase := s.phase.ready }

end Sys2Proof.Machine
end

