-- ==== Sys2Proof/Machine/Operands.lean ====
section
/-! DEFINITION. How an operation reads its operands (30_encoding.md R54, R55). Ports `a` and `b` are always Q7.8 values,
read with `s16`; there is no immediate, scaling or other form (R59). -/

namespace Sys2Proof.Machine

/-- The weight `f` of LERPn, an unsigned integer in 0 to 2^n − 1 (30_encoding.md R55, 00_scope.md R6). -/
def weight {n : Nat} (f : BitVec n) : Int := (f.toNat : Int)

/-- The magnitude `|s16(v)|`, in 0 to 32768 (43_divide.md R111). -/
def magnitude (v : Word16) : Nat := (s16 v).natAbs

/-- Whether the signs of two operands differ: `a[15] XOR b[15]` (43_divide.md R111). Zero counts as non-negative
(42_multiply.md R93). -/
def signsDiffer (a b : Word16) : Bool := neg a ^^ neg b

end Sys2Proof.Machine
end

