-- ==== Sys2Proof/Machine/Flags.lean ====
section
/-! DEFINITION. The block has no flags (10_state.md R24). What stands in their place: the overflow tests of the
operations, the sentinel that reports overflow, and the clamps that replace it. -/

namespace Sys2Proof.Machine

/-- ADD's overflow test: the operands have one sign and the sum `s` another (40_add_sub.md R70). -/
def addOverflows (a b s : Word16) : Bool := (neg a == neg b) && (neg s != neg a)

/-- SUB's overflow test: the operands differ in sign and the difference `d` differs from `a` (40_add_sub.md R71). -/
def subOverflows (a b d : Word16) : Bool := (neg a != neg b) && (neg d != neg a)

/-- `Q < -32768 or Q > 32767` (42_multiply.md R91, 43_divide.md R112). -/
def outOfRange (q : Int) : Bool := q < -32768 || q > 32767

/-- The range check of MUL and DIV: the sentinel for a `Q` out of range when checking, `u16(Q)` otherwise
(42_multiply.md R91, R92; 43_divide.md R112, R113). -/
def narrow (cfg : Config) (q : Int) : Word16 :=
  if cfg.ovfCheck && outOfRange q then sentinel else u16 q

/-- A saturating operation recognises overflow by the sentinel pattern alone (41_saturating_add_sub.md R82). -/
def reportsOverflow (r : Word16) : Bool := r == sentinel

/-- SADD's and SSUB's clamp: MAX if `a` is non-negative, else MIN (41_saturating_add_sub.md R80, R81). -/
def clampBySignOf (a r : Word16) : Word16 :=
  if reportsOverflow r then (if neg a then minWord else maxWord) else r

/-- SMUL's and SDIV's clamp: MAX if the operand signs match, else MIN (42_multiply.md R93, 43_divide.md R114). -/
def clampBySigns (a b r : Word16) : Word16 :=
  if reportsOverflow r then (if signsDiffer a b then minWord else maxWord) else r

end Sys2Proof.Machine
end

