-- ==== Sys2Proof/Machine/AddSub.lean ====
section
/-! DEFINITION. ADD and SUB (40_add_sub.md R70, R71, R73). -/

namespace Sys2Proof.Machine

/-- ADD's result (40_add_sub.md R70; R73 where OVF_CHECK = false). -/
def addResult (cfg : Config) (a b : Word16) : Word16 :=
  let s := u16 (s16 a + s16 b)
  if cfg.ovfCheck && addOverflows a b s then sentinel else s

/-- SUB's result (40_add_sub.md R71; R73 where OVF_CHECK = false). -/
def subResult (cfg : Config) (a b : Word16) : Word16 :=
  let d := u16 (s16 a - s16 b)
  if cfg.ovfCheck && subOverflows a b d then sentinel else d

/-- ADD (40_add_sub.md R70). -/
def execAdd (a b : Word16) (s : State) : Host.Outcome State Fault Refusal :=
  .next (s.respond (addResult s.cfg a b))

/-- SUB (40_add_sub.md R71). -/
def execSub (a b : Word16) (s : State) : Host.Outcome State Fault Refusal :=
  .next (s.respond (subResult s.cfg a b))

end Sys2Proof.Machine
end

