-- ==== Sys2Proof/Machine/Saturating.lean ====
section
/-! DEFINITION. SADD and SSUB (41_saturating_add_sub.md R80, R81), and the check every saturating operation begins
with (60_exceptions.md R152). -/

namespace Sys2Proof.Machine

/-- A saturating operation: ILLEGAL where OVF_CHECK = false, else its response (60_exceptions.md R152). -/
def respondIfChecking (v : Word16) (s : State) : Host.Outcome State Fault Refusal :=
  if s.cfg.ovfCheck then .next (s.respond v) else raiseIllegal .satWithoutOvfCheck

/-- SADD's result (41_saturating_add_sub.md R80). -/
def saddResult (cfg : Config) (a b : Word16) : Word16 := clampBySignOf a (addResult cfg a b)

/-- SSUB's result (41_saturating_add_sub.md R81). -/
def ssubResult (cfg : Config) (a b : Word16) : Word16 := clampBySignOf a (subResult cfg a b)

/-- SADD (41_saturating_add_sub.md R80). -/
def execSadd (a b : Word16) (s : State) : Host.Outcome State Fault Refusal :=
  respondIfChecking (saddResult s.cfg a b) s

/-- SSUB (41_saturating_add_sub.md R81). -/
def execSsub (a b : Word16) (s : State) : Host.Outcome State Fault Refusal :=
  respondIfChecking (ssubResult s.cfg a b) s

end Sys2Proof.Machine
end

