-- ==== Sys2Proof/Machine/Divide.lean ====
section
/-! DEFINITION. DIV and SDIV (43_divide.md R110 to R114). -/

namespace Sys2Proof.Machine

/-- `Qm`: the magnitude of the quotient, rounded half up or truncated (43_divide.md R111). -/
def divMagnitude (cfg : Config) (a b : Word16) : Nat :=
  let n := 256 * magnitude a
  let d := magnitude b
  if cfg.rounding then (2 * n + d) / (2 * d) else n / d

/-- `Q`: the magnitude with the sign of the operands (43_divide.md R111). -/
def divQuotient (cfg : Config) (a b : Word16) : Int :=
  if signsDiffer a b then -(divMagnitude cfg a b : Int) else (divMagnitude cfg a b : Int)

/-- DIV's result: the sentinel for a zero divisor, tested first (43_divide.md R110, 60_exceptions.md R155), else `Q`
narrowed (R112; R113 where OVF_CHECK = false). -/
def divResult (cfg : Config) (a b : Word16) : Word16 :=
  if b = 0x0000#16 then sentinel else narrow cfg (divQuotient cfg a b)

/-- SDIV's result (43_divide.md R114). -/
def sdivResult (cfg : Config) (a b : Word16) : Word16 := clampBySigns a b (divResult cfg a b)

/-- DIV (43_divide.md R110, R112, R113). -/
def execDiv (a b : Word16) (s : State) : Host.Outcome State Fault Refusal :=
  .next (s.respond (divResult s.cfg a b))

/-- SDIV (43_divide.md R114). -/
def execSdiv (a b : Word16) (s : State) : Host.Outcome State Fault Refusal :=
  respondIfChecking (sdivResult s.cfg a b) s

end Sys2Proof.Machine
end

