-- ==== Sys2Proof/Machine/Interpolate.lean ====
section
/-! DEFINITION. LERP8, LERP16 and LERP32 (45_interpolate.md R140 to R145). -/

namespace Sys2Proof.Machine

/-- The exact blend `acc` for an n-bit weight (45_interpolate.md R140). -/
def lerpAcc {n : Nat} (a b : Word16) (f : BitVec n) : Int :=
  s16 a * (2 ^ n - weight f) + s16 b * weight f

/-- `u16(acc >>a n)` (45_interpolate.md R140). -/
def lerpResult {n : Nat} (a b : Word16) (f : BitVec n) : Word16 := u16 (sra (lerpAcc a b f) n)

/-- LERP32's result: the blend, or LERP32_NARROW where WIDE_ACC = false (45_interpolate.md R143, R145). -/
def lerp32Result (cfg : Config) (a b : Word16) (f : Word32) : Word16 :=
  if cfg.wideAcc then lerpResult a b f else Config.lerp32Narrow a b f

/-- LERP8 (45_interpolate.md R141). -/
def execLerp8 (a b : Word16) (f : Byte) (s : State) : Host.Outcome State Fault Refusal :=
  .next (s.respond (lerpResult a b f))

/-- LERP16 (45_interpolate.md R142). -/
def execLerp16 (a b : Word16) (f : Word16) (s : State) : Host.Outcome State Fault Refusal :=
  .next (s.respond (lerpResult a b f))

/-- LERP32 (45_interpolate.md R143, R145). -/
def execLerp32 (a b : Word16) (f : Word32) (s : State) : Host.Outcome State Fault Refusal :=
  .next (s.respond (lerp32Result s.cfg a b f))

end Sys2Proof.Machine
end

