-- ==== Sys2Proof/Machine/Modulo.lean ====
section
/-! DEFINITION. MOD (44_modulo.md R130, R131). -/

namespace Sys2Proof.Machine

/-- MOD's result: the sentinel for a zero divisor (44_modulo.md R131), else the remainder of truncating division
(R130). It reads no configuration (R134). -/
def modResult (a b : Word16) : Word16 :=
  if b = 0x0000#16 then sentinel else u16 (s16 a - s16 b * (s16 a).tdiv (s16 b))

/-- MOD (44_modulo.md R130). -/
def execMod (a b : Word16) (s : State) : Host.Outcome State Fault Refusal :=
  .next (s.respond (modResult a b))

end Sys2Proof.Machine
end

