-- ==== Sys2Proof/Machine/Multiply.lean ====
section
/-! DEFINITION. MUL and SMUL (42_multiply.md R90 to R93). -/

namespace Sys2Proof.Machine

/-- The exact product `P` (42_multiply.md R90). -/
def product (a b : Word16) : Int := s16 a * s16 b

/-- `Q`: the product over 256, rounded with ties away from zero, or floored (42_multiply.md R90). -/
def mulQuotient (cfg : Config) (a b : Word16) : Int :=
  if cfg.rounding then rha (product a b) 256 else sra (product a b) 8

/-- MUL's result (42_multiply.md R91; R92 where OVF_CHECK = false). -/
def mulResult (cfg : Config) (a b : Word16) : Word16 := narrow cfg (mulQuotient cfg a b)

/-- SMUL's result (42_multiply.md R93). -/
def smulResult (cfg : Config) (a b : Word16) : Word16 := clampBySigns a b (mulResult cfg a b)

/-- MUL (42_multiply.md R91, R92). -/
def execMul (a b : Word16) (s : State) : Host.Outcome State Fault Refusal :=
  .next (s.respond (mulResult s.cfg a b))

/-- SMUL (42_multiply.md R93). -/
def execSmul (a b : Word16) (s : State) : Host.Outcome State Fault Refusal :=
  respondIfChecking (smulResult s.cfg a b) s

end Sys2Proof.Machine
end

