-- ==== Sys2Proof/Machine/Dispatch.lean ====
section
/-! DEFINITION. One arm per operation of 30_encoding.md R51. -/

namespace Sys2Proof.Machine

def exec (i : Instr) (s : State) : Host.Outcome State Fault Refusal :=
  match i with
  | .add a b => Sys2Proof.Machine.execAdd a b s
  | .sub a b => Sys2Proof.Machine.execSub a b s
  | .sadd a b => Sys2Proof.Machine.execSadd a b s
  | .ssub a b => Sys2Proof.Machine.execSsub a b s
  | .mul a b => Sys2Proof.Machine.execMul a b s
  | .smul a b => Sys2Proof.Machine.execSmul a b s
  | .div a b => Sys2Proof.Machine.execDiv a b s
  | .sdiv a b => Sys2Proof.Machine.execSdiv a b s
  | .mod a b => Sys2Proof.Machine.execMod a b s
  | .lerp8 a b f => Sys2Proof.Machine.execLerp8 a b f s
  | .lerp16 a b f => Sys2Proof.Machine.execLerp16 a b f s
  | .lerp32 a b f => Sys2Proof.Machine.execLerp32 a b f s

end Sys2Proof.Machine
end

