-- ==== Sys2Proof/Machine/Step.lean ====
section
/-! DEFINITION. One step: one transaction, from request to response (70_reset_and_hazards.md R176). -/

namespace Sys2Proof.Machine

/-- The host takes a presented response, an idle block accepts the next waiting request, and the outstanding request is
answered. A request that names no operation faults (60_exceptions.md R150). With nothing waiting the block is idle
(R160). -/
def step (s : State) : Host.Outcome State Fault Refusal :=
  match s.fetch.phase with
  | .computing r _ =>
    match decode r with
    | .ok i    => exec i s.fetch
    | .error c => raiseIllegal c
  | .idle         => .next s.fetch
  | .presenting _ => .next s.fetch

/-- The request with the given table word (its other bits zero) put first in line (log entry 6). -/
def State.withFetchWord (s : State) (nbits w : Nat) : State :=
  s.withRequest (Request.ofTableWord nbits w)

end Sys2Proof.Machine
end

