-- ==== Sys2Proof/Machine/Results.lean ====
section
/-! DEFINITION. The response to a request as a function of the request and the configuration "and of nothing else"
(10_state.md R20): what the meanings put on the port, gathered in one place for the cycle-level layer and for
statements. -/

namespace Sys2Proof.Machine

/-- The result an operation's rule gives. -/
def ruleResult (cfg : Config) : Instr → Word16
  | .add a b      => addResult cfg a b
  | .sub a b      => subResult cfg a b
  | .sadd a b     => saddResult cfg a b
  | .ssub a b     => ssubResult cfg a b
  | .mul a b      => mulResult cfg a b
  | .smul a b     => smulResult cfg a b
  | .div a b      => divResult cfg a b
  | .sdiv a b     => sdivResult cfg a b
  | .mod a b      => modResult a b
  | .lerp8 a b f  => lerpResult a b f
  | .lerp16 a b f => lerpResult a b f
  | .lerp32 a b f => lerp32Result cfg a b f

/-- The operation a request asks of an instance, or the cause of its ILLEGAL response: the checks of 60_exceptions.md
R155, steps 1 to 3, in order. -/
def checked (cfg : Config) (r : Request) : Except IllegalCause Instr :=
  match decode r with
  | .ok i    => if i.availableIn cfg then .ok i else .error .satWithoutOvfCheck
  | .error c => .error c

/-- The answer the rules give to a request: its result, or the cause of its ILLEGAL response (60_exceptions.md R155). -/
def answer (cfg : Config) (r : Request) : Except IllegalCause Word16 :=
  match checked cfg r with
  | .ok i    => .ok (ruleResult cfg i)
  | .error c => .error c

/-- A response is the one a request calls for: the result with `ill = 0`, or `ill = 1` with any `y` (10_state.md R26,
60_exceptions.md R150). -/
def rightResponse (cfg : Config) (r : Request) (p : Response) : Bool :=
  match answer cfg r with
  | .ok v    => p == { y := v, ill := false }
  | .error _ => p.ill

end Sys2Proof.Machine
end

