-- ==== Sys2Proof/Machine/Datapath.lean ====
section
/-! DEFINITION. The datapaths the ALG axis selects (00_scope.md R10), at the register widths the spec gives: 42_multiply.md
R94, R95; 43_divide.md R115, R117; 44_modulo.md R132; 45_interpolate.md R146, R147. Their registers hold a value during
one operation only (10_state.md R29): they are local here and no part of State. The loops carry the bounds the spec
derives for them as fuel (43_divide.md R118, 44_modulo.md R132; log entry 19). -/

namespace Sys2Proof.Machine

/-! Multiply. -/

/-- The wide-intermediate multiplier (42_multiply.md R94): a 32-bit signed product `p`. -/
def mulWide (cfg : Config) (a b : Word16) : Word16 :=
  let p : BitVec 32 := a.signExtend 32 * b.signExtend 32
  let high : BitVec 9 := p.extractLsb' 23 9
  if cfg.ovfCheck && high != 0b000000000#9 && high != 0b111111111#9 then sentinel
  else
    let p' := if cfg.rounding then p + (if p.msb then 127#32 else 128#32) else p
    (p'.sshiftRight 8).setWidth 16

/-- An 8×8-bit partial product; one with a zero limb is skipped (42_multiply.md R95). -/
def partialProduct (x y : Byte) : Word16 :=
  if x != 0#8 && y != 0#8 then x.setWidth 16 * y.setWidth 16 else 0#16

/-- `m = |P|` from the four partial products of two magnitudes; the low limb is bits [7:0] (42_multiply.md R95,
20_memory.md R41). -/
def limbSum (ma mb : Word16) : Word32 :=
  let al : Byte := ma.extractLsb' 0 8
  let ah : Byte := ma.extractLsb' 8 8
  let bl : Byte := mb.extractLsb' 0 8
  let bh : Byte := mb.extractLsb' 8 8
  let hh := (partialProduct ah bh).setWidth 32
  let lh := (partialProduct al bh).setWidth 32
  let hl := (partialProduct ah bl).setWidth 32
  let ll := (partialProduct al bl).setWidth 32
  (hh <<< 16) + ((lh + hl) <<< 8) + ll

/-- The limb-decomposed multiplier (42_multiply.md R95). -/
def mulLimb (cfg : Config) (a b : Word16) : Word16 :=
  let sg := signsDiffer a b
  let m := limbSum (absU16 a) (absU16 b)
  let k : Word32 := if cfg.rounding then 128#32 else if sg then 255#32 else 0#32
  let r := (m + k) >>> 8
  if cfg.ovfCheck && 0x7FFF#32 < r then sentinel
  else if sg then (-r).setWidth 16 else r.setWidth 16

/-- The multiplier the instance builds (00_scope.md R10). -/
def mulDatapath (cfg : Config) (a b : Word16) : Word16 :=
  match cfg.alg with
  | .wide => mulWide cfg a b
  | .limb => mulLimb cfg a b

/-! Divide. -/

/-- The wide-intermediate divider (43_divide.md R115): `n` is `a * 256` in 32 bits, the division unsigned. -/
def divWide (cfg : Config) (a b : Word16) : Word16 :=
  if b = 0x0000#16 then sentinel
  else
    let n : Word32 := a.signExtend 32 <<< 8
    let mn := n.abs
    let d := (b.signExtend 32).abs
    let qm := (mn + (if cfg.rounding then d >>> 1 else 0#32)) / d
    let q := if signsDiffer a b then -qm else qm
    if cfg.ovfCheck && outOfRange q.toInt then sentinel else q.setWidth 16

/-- One alignment shift of the working divisor and the weight, where `d < r` (43_divide.md R117). -/
def alignStep (r : Word16) (db : Word16 × BitVec 24) : Word16 × BitVec 24 :=
  if db.1 < r then (db.1 <<< 1, db.2 <<< 1) else db

/-- `while d < r: d <- d << 1; bit <- bit << 1`, at most `fuel` times (43_divide.md R117). -/
def alignLoop (r : Word16) : Nat → Word16 × BitVec 24 → Word16 × BitVec 24
  | 0, db        => db
  | fuel + 1, db => if db.1 < r then alignLoop r fuel (alignStep r db) else db

/-- The divider's registers while it subtracts: remainder, weight, quotient (43_divide.md R117). -/
structure DivRegs where
  r   : Word16
  bit : BitVec 24
  q   : BitVec 24
  deriving DecidableEq, Repr

/-- `if r >= d: q <- q | bit; r <- r - d` (43_divide.md R117). -/
def trialSubtract (d : Word16) (s : DivRegs) : DivRegs :=
  if d ≤ s.r then { s with q := s.q ||| s.bit, r := s.r - d } else s

/-- One iteration of the restoring loop (43_divide.md R117). -/
def restoringStep (d : Word16) (s : DivRegs) : DivRegs :=
  let t := trialSubtract d s
  { t with r := t.r <<< 1, bit := t.bit >>> 1 }

/-- Whether the restoring loop goes on: `bit != 0 and r != 0` (43_divide.md R117). -/
def restoringGoesOn (s : DivRegs) : Bool := s.bit != 0#24 && s.r != 0#16

/-- `while bit != 0 and r != 0`, at most `fuel` times (43_divide.md R117). -/
def restoringLoop (d : Word16) : Nat → DivRegs → DivRegs
  | 0, s        => s
  | fuel + 1, s => if restoringGoesOn s then restoringLoop d fuel (restoringStep d s) else s

/-- Working divisor and weight after alignment: at most 15 shifts from a weight of 256 (43_divide.md R117, R118). -/
def alignedFor (a b : Word16) : Word16 × BitVec 24 :=
  alignLoop (absU16 a) 15 (absU16 b, 0x000100#24)

/-- The manual step, taken where `d[15] = 1`; the working divisor and the registers with which the restoring loop
starts (43_divide.md R117). -/
def manualStep (d : Word16) (s : DivRegs) : Word16 × DivRegs :=
  if d.msb then
    let t := trialSubtract d s
    (d >>> 1, { t with bit := t.bit >>> 1 })
  else (d, s)

/-- The working divisor and registers with which the restoring loop starts. -/
def loopStart (a b : Word16) : Word16 × DivRegs :=
  manualStep (alignedFor a b).1 { r := absU16 a, bit := (alignedFor a b).2, q := 0#24 }

/-- The restoring divider (43_divide.md R117): at most 24 iterations (R118). -/
def divRestoring (cfg : Config) (a b : Word16) : Word16 :=
  if b = 0x0000#16 then sentinel
  else if cfg.ovfCheck && 0x010000#24 ≤ (alignedFor a b).2 then sentinel
  else
    let d := (loopStart a b).1
    let s := restoringLoop d 24 (loopStart a b).2
    let q := if cfg.rounding && d ≤ s.r then s.q + 1#24 else s.q
    if signsDiffer a b then
      if cfg.ovfCheck && 0x8000#24 ≤ q then sentinel else (-q).setWidth 16
    else
      if cfg.ovfCheck && 0x7FFF#24 < q then sentinel else q.setWidth 16

/-- The divider the instance builds (00_scope.md R10). -/
def divDatapath (cfg : Config) (a b : Word16) : Word16 :=
  match cfg.alg with
  | .wide => divWide cfg a b
  | .limb => divRestoring cfg a b

/-! Modulo. -/

/-- The native truncating remainder of the signed operands (44_modulo.md R132, ALG = WIDE). -/
def modNative (a b : Word16) : Word16 :=
  if b = 0x0000#16 then sentinel else a.srem b

/-- `while r >= m: r <- r - m`, at most `fuel` times (44_modulo.md R132). -/
def subtractLoop (m : Word16) : Nat → Word16 → Word16
  | 0, r        => r
  | fuel + 1, r => if m ≤ r then subtractLoop m fuel (r - m) else r

/-- Repeated subtraction on magnitudes, at most 32768 times, with the sign of the dividend (44_modulo.md R132, ALG =
LIMB). -/
def modLoop (a b : Word16) : Word16 :=
  if b = 0x0000#16 then sentinel
  else
    let r := subtractLoop (absU16 b) 32768 (absU16 a)
    if neg a then -r else r

/-- The modulo unit the instance builds (00_scope.md R10). -/
def modDatapath (cfg : Config) (a b : Word16) : Word16 :=
  match cfg.alg with
  | .wide => modNative a b
  | .limb => modLoop a b

/-! Interpolate. -/

/-- The interpolator with a signed accumulator of `width` bits (45_interpolate.md R140, R147): the blend and the
arithmetic shift are done in the accumulator. -/
def lerpDatapath (width : Nat) {n : Nat} (a b : Word16) (f : BitVec n) : Word16 :=
  let whole : BitVec width := 1#width <<< n
  let t : BitVec width := f.setWidth width
  let acc := a.signExtend width * (whole - t) + b.signExtend width * t
  (acc.sshiftRight n).setWidth 16

/-! The block's function units. -/

/-- The result the instance's datapaths compute. Add and subtract have one datapath (40_add_sub.md R74), and so has
LERPn (45_interpolate.md R146), here with the n + 16 bits of accumulator that R147 asks for (log entry 18). -/
def datapathResult (cfg : Config) : Instr → Word16
  | .add a b      => addResult cfg a b
  | .sub a b      => subResult cfg a b
  | .sadd a b     => clampBySignOf a (addResult cfg a b)
  | .ssub a b     => clampBySignOf a (subResult cfg a b)
  | .mul a b      => mulDatapath cfg a b
  | .smul a b     => clampBySigns a b (mulDatapath cfg a b)
  | .div a b      => divDatapath cfg a b
  | .sdiv a b     => clampBySigns a b (divDatapath cfg a b)
  | .mod a b      => modDatapath cfg a b
  | .lerp8 a b f  => lerpDatapath 24 a b f
  | .lerp16 a b f => lerpDatapath 32 a b f
  | .lerp32 a b f => if cfg.wideAcc then lerpDatapath 48 a b f else Config.lerp32Narrow a b f

end Sys2Proof.Machine
end

