-- ==== Sys2Proof/Machine/Handshake.lean ====
section
/-! DEFINITION. The block cycle by cycle, as its ports show it (70_reset_and_hazards.md R170 to R174): requests wait, are
accepted one at a time, take LATENCY cycles in the datapath the instance builds, and are answered in order; reset
abandons the outstanding one. `step` (Machine/Step.lean) is the transaction view of the same block (R176). -/

namespace Sys2Proof.Machine

/-- The answer the hardware computes to a request: the checks, then the selected datapath. -/
def hardwareAnswer (cfg : Config) (r : Request) : Except IllegalCause Word16 :=
  match checked cfg r with
  | .ok i    => .ok (datapathResult cfg i)
  | .error c => .error c

/-- The response to the outstanding request is put on the port: the result, or the ILLEGAL response
(10_state.md R26, 60_exceptions.md R150). -/
def State.presentAnswer (r : Request) (s : State) : State :=
  match hardwareAnswer s.cfg r with
  | .ok v    => s.respond v
  | .error _ => s.respondIllegal

/-- One clock cycle: a request that has had LATENCY cycles gets its response (70_reset_and_hazards.md R174). -/
def State.cycle (s : State) : State :=
  match s.phase with
  | .computing r n =>
    if n + 1 < Config.latency r.cmd then { s with phase := .computing r (n + 1) } else s.presentAnswer r
  | .idle         => s
  | .presenting _ => s

/-- `n` clock cycles. -/
def State.cycles : Nat → State → State
  | 0, s     => s
  | n + 1, s => State.cycles n s.cycle

/-- A whole reset, from assertion to release: the outstanding request is abandoned, the block is idle, `y` and `ill` are
unspecified (free values), the parameters stay (70_reset_and_hazards.md R170 to R173). Requests that wait are the host's,
and reset does not reach them (log entry 21). DESIGN CHOICE: the spec speaks of reset asserted (R171) and released (R172,
R178) and not of an accept, a take or a cycle while it is held; here assertion and release are one event without
duration, and whatever comes next finds the block released (log entry 22). -/
def State.assertReset (s : State) : State :=
  { s with phase := .idle, y := Config.freeWord s.freeCount, ill := Config.freeBit s.freeCount,
           freeCount := s.freeCount + 1 }

/-- What can happen at the ports: the host's three acts, and the block's two (70_reset_and_hazards.md R171, R174). -/
inductive Event
  /-- The host offers a request. -/
  | present (r : Request)
  /-- The block accepts the oldest waiting request, if it is idle. -/
  | accept
  /-- A clock cycle passes. -/
  | cycle
  /-- The host takes the presented response, if there is one. -/
  | take
  /-- Reset is asserted and released again, as one event (log entry 22). -/
  | reset
  deriving DecidableEq, Repr

/-- The state after an event. One that is not due changes nothing (log entry 14). -/
def State.event (e : Event) (s : State) : State :=
  match e with
  | .present r => s.present r
  | .accept    => s.accept
  | .cycle     => s.cycle
  | .take      => s.take
  | .reset     => s.assertReset

/-- The state after a sequence of events, first to last. -/
def State.events : List Event → State → State
  | [], s      => s
  | e :: es, s => State.events es (s.event e)

/-- An observer at the ports: every request offered, and every request the block is done with, in order, with the
response the host took (none where reset abandoned the request). The observer is the model's own and no part of
State. -/
structure Trace where
  st      : State
  offered : List Request
  closed  : List (Request × Option Response)
  deriving DecidableEq, Repr

/-- What an event adds to the list of closed requests. -/
def closedBy (e : Event) (s : State) : List (Request × Option Response) :=
  match e, s.phase with
  | .take, .presenting r   => [(r, some s.response)]
  | .reset, .computing r _ => [(r, none)]
  | .reset, .presenting r  => [(r, none)]
  | _, _                   => []

/-- What an event adds to the list of offered requests. -/
def offeredBy : Event → List Request
  | .present r => [r]
  | .accept    => []
  | .cycle     => []
  | .take      => []
  | .reset     => []

/-- The observer after an event. -/
def Trace.event (e : Event) (t : Trace) : Trace :=
  { st := t.st.event e, offered := t.offered ++ offeredBy e, closed := t.closed ++ closedBy e t.st }

/-- The observer after a sequence of events, first to last. -/
def Trace.events : List Event → Trace → Trace
  | [], t      => t
  | e :: es, t => Trace.events es (t.event e)

/-- The observer before the first event, on an idle block that nobody has asked anything yet. -/
def Trace.start (cfg : Config) : Trace :=
  { st := { State.reset with cfg := cfg }, offered := [], closed := [] }

end Sys2Proof.Machine
end

