-- ==== Sys2Proof/Safety.lean ====
section
/-! DEFINITION. What counts as a safe run: "a claim about a host program must take 'no ILLEGAL response' as a premise, or
it must show the program issues only legal requests" (60_exceptions.md R150); and what holds of the handshake in every
state a block can be in (70_reset_and_hazards.md R174). -/

namespace Sys2Proof.Machine

/-- The instance answers the request with a result. -/
def legalRequest (cfg : Config) (r : Request) : Bool :=
  match checked cfg r with
  | .ok _    => true
  | .error _ => false

/-- The request the block is computing is legal; any other phase has none to compute. -/
def Phase.legal (cfg : Config) : Phase → Bool
  | .idle          => true
  | .computing r _ => legalRequest cfg r
  | .presenting _  => true

/-- The host has issued only legal requests. -/
def State.onlyLegal (s : State) : Bool := s.phase.legal s.cfg && s.waiting.all (legalRequest s.cfg)

/-- The step ended in a next state. -/
def completed : Host.Outcome State Fault Refusal → Bool
  | .next _    => true
  | .fault _   => false
  | .refused _ => false

/-- The handshake is coherent: a request is computed for less than LATENCY cycles, and a presented response is the one its
request calls for (70_reset_and_hazards.md R174, 10_state.md R20, R26). -/
def State.coherent (s : State) : Bool :=
  match s.phase with
  | .idle          => true
  | .computing r n => n < Config.latency r.cmd
  | .presenting r  => rightResponse s.cfg r s.response

/-- Every response the host took is the one its request calls for. -/
def closedRight (cfg : Config) (c : Request × Option Response) : Bool :=
  match c.2 with
  | some p => rightResponse cfg c.1 p
  | none   => true

/-- Nothing is lost, merged or reordered, and every response is right (20_memory.md R45, 70_reset_and_hazards.md R171,
R174): the offered requests are the closed ones, then the outstanding one, then the waiting ones. -/
def Trace.faithful (t : Trace) : Prop :=
  t.offered = t.closed.map Prod.fst ++ (t.st.phase.outstanding.toList ++ t.st.waiting) ∧
    t.closed.all (closedRight t.st.cfg) = true ∧ t.st.coherent = true

end Sys2Proof.Machine
end

