-- ==== Sys2Proof/Certificates/Slice0/Obligations.lean ====
section
/-! DEFINITION. The statements for the provers. Each docstring names the rule of spec/ the statement formalises, or says
that it is derived. A statement about the next state of `exec` gives the whole state, so it is the instruction's frame
and its completion as well: every field but `phase`, `y` and `ill` is as before. -/

open Sys2Proof Sys2Proof.Machine

/-! ## The primitives and the value encoding -/

/-- Derived from 00_scope.md section 5: `s16`, `u16` and `abs_u16` are what the notation says. -/
def Obligations.WordPrimitives : Prop :=
  ∀ (v : Word16) (n : Int),
    s16 v = (if v.getLsbD 15 then (v.toNat : Int) - 65536 else (v.toNat : Int)) ∧
    ((u16 n).toNat : Int) = n % 65536 ∧
    ((absU16 v).toNat : Int) = |s16 v| ∧
    absU16 0x8000#16 = 0x8000#16

/-- Derived from 00_scope.md section 5: `rha(n, d)` is an integer nearest to `n / d`, and of two nearest ones the one
further from zero. `n >>a k` is the floor of `n / 2^k`. -/
def Obligations.RoundingIsNearestTiesAway : Prop :=
  (∀ (n : Int) (d : Nat), 0 < d →
    2 * |d * rha n d - n| ≤ d ∧ (2 * |d * rha n d - n| = d → |n| < |d * rha n d|)) ∧
  (∀ (n : Int) (k : Nat), 2 ^ k * sra n k ≤ n ∧ n < 2 ^ k * (sra n k + 1))

/-- 10_state.md R31: the patterns are the 65536 multiples of 1/256 from −128.0 to +127.99609375. -/
def Obligations.PatternsAreTheMultiplesOfOneOver256 : Prop :=
  (∀ v : Word16, qvalue v = (s16 v : Rat) / 256 ∧ -128 ≤ qvalue v ∧ qvalue v ≤ 127.99609375) ∧
  (∀ k : Int, -32768 ≤ k → k ≤ 32767 → ∃ v : Word16, qvalue v = (k : Rat) / 256) ∧
  (∀ v w : Word16, qvalue v = qvalue w → v = w)

/-- Derived from 10_state.md R27 and R28: the constants, and three ways to get the pattern 0x8000: a genuine −128.0, an
overflow, and a division by zero. -/
def Obligations.ConstantsAndTheAmbiguousPattern : Prop :=
  one = 0x0100#16 ∧ maxWord = 0x7FFF#16 ∧ minWord = 0x8000#16 ∧ sentinel = minWord ∧
  qvalue one = 1 ∧ qvalue maxWord = 127.99609375 ∧ qvalue minWord = -128 ∧
  addResult Config.standard minWord 0x0000#16 = sentinel ∧
  addResult Config.standard maxWord one = sentinel ∧
  divResult Config.standard one 0x0000#16 = sentinel

/-- Derived from 20_memory.md R43: 72 bits are one request and 17 bits one response, with no bit lost. The order of the
bits is the model's choice (log entry 5). -/
def Obligations.RequestsAndResponsesAreTheirBits : Prop :=
  (∀ r : Request, Request.ofBits r.toBits = r) ∧ (∀ v : BitVec 72, (Request.ofBits v).toBits = v) ∧
  (∀ p : Response, Response.ofBits p.toBits = p) ∧ (∀ v : BitVec 17, (Response.ofBits v).toBits = v)

/-! ## Encoding -/

/-- 30_encoding.md R51: the operation map, for all operands, reserved codes included. -/
def Obligations.CommandByteSelectsTheOperation : Prop :=
  ∀ (a b : Word16) (w : Word32),
    decode ⟨0x00#8, a, b, w⟩ = .error .reservedOp ∧
    decode ⟨0x01#8, a, b, w⟩ = .ok (.add a b) ∧
    decode ⟨0x02#8, a, b, w⟩ = .ok (.sub a b) ∧
    decode ⟨0x03#8, a, b, w⟩ = .ok (.sadd a b) ∧
    decode ⟨0x04#8, a, b, w⟩ = .ok (.ssub a b) ∧
    decode ⟨0x05#8, a, b, w⟩ = .ok (.mul a b) ∧
    decode ⟨0x06#8, a, b, w⟩ = .ok (.smul a b) ∧
    decode ⟨0x07#8, a, b, w⟩ = .ok (.div a b) ∧
    decode ⟨0x08#8, a, b, w⟩ = .ok (.sdiv a b) ∧
    decode ⟨0x09#8, a, b, w⟩ = .ok (.mod a b) ∧
    decode ⟨0x0A#8, a, b, w⟩ = .ok (.lerp8 a b (w.extractLsb' 0 8)) ∧
    decode ⟨0x0B#8, a, b, w⟩ = .ok (.lerp16 a b (w.extractLsb' 0 16)) ∧
    decode ⟨0x0C#8, a, b, w⟩ = .ok (.lerp32 a b w) ∧
    decode ⟨0x0D#8, a, b, w⟩ = .error .reservedOp ∧
    decode ⟨0x0E#8, a, b, w⟩ = .error .reservedOp ∧
    decode ⟨0x0F#8, a, b, w⟩ = .error .reservedOp

/-- Derived from 30_encoding.md R50, R51, R53: three words of the opcode table, one command byte that is not in the table
and is refused, and two whole requests of 95_test_vectors.md section 4 as 72-bit numbers. That a table word stands for a
request with zero on all operand ports (log entry 20), and the order of the 72 bits (log entry 5), are the model's
choices. -/
def Obligations.SampleWordsDecode : Prop :=
  decodeTableWord 8 0x01 = some (.add 0x0000#16 0x0000#16) ∧
  decodeTableWord 8 0x08 = some (.sdiv 0x0000#16 0x0000#16) ∧
  decodeTableWord 8 0x0C = some (.lerp32 0x0000#16 0x0000#16 0x00000000#32) ∧
  decodeTableWord 8 0x11 = none ∧
  decodeTableWord 72 0x000000000300018005 = some (.mul 0x0180#16 0x0300#16) ∧
  decodeTableWord 72 0x000000803C0064000A = some (.lerp8 0x6400#16 0x3C00#16 0x80#8)

/-- Derived from 30_encoding.md R50 to R55: every operation, with every operand at every value, comes back from the 72
bits of its encoding. -/
def Obligations.DecodeOfEncodeIsTheInstruction : Prop :=
  ∀ i : Instr, decode (Request.ofBits (encode i).toBits) = .ok i

/-- Derived from 30_encoding.md R50 to R55: what the decoder reads from a request, the encoder writes back: the command
byte, both operands, and every bit of the weight that the operation reads. -/
def Obligations.EncodeOfDecodeKeepsEveryBitRead : Prop :=
  ∀ (r : Request) (i : Instr), decode r = .ok i →
    (encode i).cmd = r.cmd ∧ (encode i).a = r.a ∧ (encode i).b = r.b ∧
    (r.cmd = 0x0A#8 → ∀ k, k < 8 → (encode i).w.getLsbD k = r.w.getLsbD k) ∧
    (r.cmd = 0x0B#8 → ∀ k, k < 16 → (encode i).w.getLsbD k = r.w.getLsbD k) ∧
    (r.cmd = 0x0C#8 → (encode i).w = r.w)

/-- 30_encoding.md R56: two requests that differ in unread bits of `w` only get the same answer. -/
def Obligations.UnreadPortBitsAreIgnored : Prop :=
  ∀ (cfg : Config) (c : Byte) (a b : Word16) (w w' : Word32),
    (0x01#8 ≤ c ∧ c ≤ 0x09#8) ∨
      (c = 0x0A#8 ∧ w.extractLsb' 0 8 = w'.extractLsb' 0 8) ∨
      (c = 0x0B#8 ∧ w.extractLsb' 0 16 = w'.extractLsb' 0 16) →
    answer cfg ⟨c, a, b, w⟩ = answer cfg ⟨c, a, b, w'⟩

/-- 30_encoding.md R58: 12 of the 256 command bytes are operations and 244 are ILLEGAL; four operations are also ILLEGAL
where OVF_CHECK = false; LERP32 is legal under either WIDE_ACC, with LERP32_NARROW as its result under the second. -/
def Obligations.TwelveLegalCommandBytes : Prop :=
  ∀ (a b : Word16) (w : Word32) (cfg : Config),
    ((List.range 256).countP fun c => legalRequest Config.standard ⟨BitVec.ofNat 8 c, a, b, w⟩) = 12 ∧
    ((List.range 256).countP fun c => !legalRequest Config.standard ⟨BitVec.ofNat 8 c, a, b, w⟩) = 244 ∧
    (∀ c : Byte, legalRequest cfg ⟨c, a, b, w⟩ = true ↔
      (0x01#8 ≤ c ∧ c ≤ 0x0C#8) ∧
        (cfg.ovfCheck = true ∨ (c ≠ 0x03#8 ∧ c ≠ 0x04#8 ∧ c ≠ 0x06#8 ∧ c ≠ 0x08#8))) ∧
    (cfg.wideAcc = false → answer cfg ⟨0x0C#8, a, b, w⟩ = .ok (Config.lerp32Narrow a b w))

/-- Derived from 60_exceptions.md R150, R151, R152 and R155: the causes of ILLEGAL, on a block that is not computing, for
the next request. That reserved bits are looked at before the code is R155's order. That `step`, of the model's two layers,
is the one an ILLEGAL response stops, and that its fault names the cause, are the model's choices (log entries 4 and
17). -/
def Obligations.IllegalRequestsFault : Prop :=
  ∀ (s : State) (r : Request) (rest : List Request),
    (∀ q n, s.phase ≠ .computing q n) → s.waiting = r :: rest →
    (r.cmd.extractLsb' 4 4 ≠ 0#4 → step s = .fault (.illegal .reservedBits)) ∧
    (r.cmd = 0x00#8 ∨ r.cmd = 0x0D#8 ∨ r.cmd = 0x0E#8 ∨ r.cmd = 0x0F#8 →
      step s = .fault (.illegal .reservedOp)) ∧
    ((r.cmd = 0x03#8 ∨ r.cmd = 0x04#8 ∨ r.cmd = 0x06#8 ∨ r.cmd = 0x08#8) ∧ s.cfg.ovfCheck = false →
      step s = .fault (.illegal .satWithoutOvfCheck))

/-! ## The step -/

/-- Derived from 10_state.md R21, R22 and 70_reset_and_hazards.md R174: a step is `exec` of the operation that the oldest
waiting request names, on the block busy with it; or of the operation the block is already computing. -/
def Obligations.StepRunsTheDecodedInstruction : Prop :=
  ∀ (s : State) (r : Request) (i : Instr), decode r = .ok i →
    (∀ rest, (∀ q n, s.phase ≠ .computing q n) → s.waiting = r :: rest →
      step s = exec i { s with waiting := rest, phase := .computing r 0 }) ∧
    (∀ n, s.phase = .computing r n → step s = exec i s)

/-- Derived from 10_state.md R21, R22: a table word put first in line is the instruction the very next step runs, on any
block. How a host's request comes to be first in line is the model's choice (log entry 6). -/
def Obligations.FetchWordRunsNext : Prop :=
  ∀ (s : State) (nbits w : Nat) (i : Instr), decodeTableWord nbits w = some i →
    step (s.withFetchWord nbits w) = exec i { s with phase := .computing (Request.ofTableWord nbits w) 0 }

/-- Derived from 60_exceptions.md R160 and 70_reset_and_hazards.md R174: with nothing waiting, an idle block stays as it
is, and a presented response is taken. That the port keeps its values then is the model's choice (log entry 8). -/
def Obligations.StepWithoutARequestIsIdle : Prop :=
  ∀ s : State, s.waiting = [] →
    (s.phase = .idle → step s = .next s) ∧
    (∀ r, s.phase = .presenting r → step s = .next { s with phase := .idle })

/-- Derived from 10_state.md R20, R26 and 60_exceptions.md R150, R155: a step puts the answer to the next request on the
response port, or faults with the cause of its ILLEGAL response. -/
def Obligations.StepAnswersTheNextRequest : Prop :=
  ∀ (s : State) (r : Request) (rest : List Request),
    (∀ q n, s.phase ≠ .computing q n) → s.waiting = r :: rest →
    (∀ v, answer s.cfg r = .ok v →
      step s = .next { s with waiting := rest, phase := .presenting r, y := v, ill := false }) ∧
    (∀ c, answer s.cfg r = .error c → step s = .fault (.illegal c))

/-- 10_state.md R20: the response is a function of the request and the configuration, whatever went before. -/
def Obligations.ResponseDependsOnRequestAndConfigurationOnly : Prop :=
  ∀ (s₁ s₂ : State) (r : Request) (rest₁ rest₂ : List Request),
    s₁.cfg = s₂.cfg → (∀ q n, s₁.phase ≠ .computing q n) → (∀ q n, s₂.phase ≠ .computing q n) →
    s₁.waiting = r :: rest₁ → s₂.waiting = r :: rest₂ →
    (∀ f, step s₁ = .fault f ↔ step s₂ = .fault f) ∧
    (∀ p : Response, (∃ t, step s₁ = .next t ∧ t.response = p) ↔ (∃ t, step s₂ = .next t ∧ t.response = p))

/-- Derived from 00_scope.md section 5 ("writes `y` exactly once or raises ILLEGAL. Nothing else is written"), 10_state.md
R23 to R26: the frame of every operation, ADD to LERP32. -/
def Obligations.OnlyTheResponseIsWritten : Prop :=
  ∀ (i : Instr) (s t : State), exec i s = .next t →
    t.cfg = s.cfg ∧ t.waiting = s.waiting ∧ t.freeCount = s.freeCount ∧ t.phase = s.phase.answered ∧ t.ill = false

/-- Derived from 60_exceptions.md R152 and R153: an operation stops in one case only, a saturating one without overflow
checking; nothing is refused. -/
def Obligations.OnlySaturatingOperationsFault : Prop :=
  ∀ (i : Instr) (s : State),
    (∀ f, exec i s = .fault f ↔
      f = .illegal .satWithoutOvfCheck ∧ s.cfg.ovfCheck = false ∧
        ∃ a b, i = .sadd a b ∨ i = .ssub a b ∨ i = .smul a b ∨ i = .sdiv a b) ∧
    (∀ c, exec i s ≠ .refused c)

/-- 70_reset_and_hazards.md R173: no step, no event at the ports and no reset changes a parameter. -/
def Obligations.NothingChangesTheConfiguration : Prop :=
  (∀ s t : State, step s = .next t → t.cfg = s.cfg) ∧
  (∀ (es : List Event) (s : State), (State.events es s).cfg = s.cfg)

/-- Derived from 00_scope.md R13, which says what the default configuration is: State.reset has it. That State carries the
configuration and that State.reset has the default one is the model's choice (log entry 1). -/
def Obligations.ResetHasTheDefaultConfiguration : Prop :=
  State.reset.cfg = { ovfCheck := true, rounding := true, alg := .wide, wideAcc := true }

/-- Derived from 70_reset_and_hazards.md R172 and R171: after reset the block is idle, ready to accept, and an outstanding
request is gone. The model's choices here: nothing is waiting in State.reset (log entry 6), waiting requests survive a reset
event (log entry 21), and one event is the whole of a reset, so the block may accept at once (log entry 22). -/
def Obligations.ResetLeavesTheBlockIdle : Prop :=
  State.reset.phase = .idle ∧ State.reset.waiting = [] ∧
  ∀ s : State, s.assertReset.phase = .idle ∧ s.assertReset.cfg = s.cfg ∧ s.assertReset.waiting = s.waiting ∧
    s.assertReset.phase.outstanding = none ∧
    ∀ r rest, s.waiting = r :: rest → s.assertReset.accept.phase = .computing r 0

/-- Derived from 70_reset_and_hazards.md R170: the first response after reset is the one the request would get at any
other time. That the waiting requests are still there, and that one event is the whole of a reset, are the model's choices
(log entries 21 and 22). -/
def Obligations.ResetChangesNoResponse : Prop :=
  ∀ (s : State) (r : Request) (rest : List Request),
    (∀ q n, s.phase ≠ .computing q n) → s.waiting = r :: rest →
    (∀ f, step s.assertReset = .fault f ↔ step s = .fault f) ∧
    (∀ p : Response, (∃ t, step s.assertReset = .next t ∧ t.response = p) ↔ (∃ t, step s = .next t ∧ t.response = p))

/-! ## Add and subtract -/

/-- 40_add_sub.md R70: ADD, by its pseudocode. -/
def Obligations.AddByRule : Prop :=
  ∀ (a b : Word16) (s : State),
    let sum := u16 (s16 a + s16 b)
    exec (.add a b) s = .next { s with
      phase := s.phase.answered
      ill := false
      y := if s.cfg.ovfCheck = true ∧ a.getLsbD 15 = b.getLsbD 15 ∧ sum.getLsbD 15 ≠ a.getLsbD 15 then 0x8000#16
           else sum }

/-- 40_add_sub.md R71: SUB, by its pseudocode; `SUB x, x` is 0 for every `x`. -/
def Obligations.SubByRule : Prop :=
  ∀ (a b : Word16) (s : State),
    let d := u16 (s16 a - s16 b)
    exec (.sub a b) s = .next { s with
      phase := s.phase.answered
      ill := false
      y := if s.cfg.ovfCheck = true ∧ a.getLsbD 15 ≠ b.getLsbD 15 ∧ d.getLsbD 15 ≠ a.getLsbD 15 then 0x8000#16
           else d } ∧
    subResult s.cfg a a = 0x0000#16

/-- 40_add_sub.md R72 and R73: the overflow tests hold exactly out of range, so ADD and SUB give the exact result or the
sentinel; without checking they wrap. -/
def Obligations.AddSubExactOrSentinelOrWrapped : Prop :=
  ∀ (a b : Word16) (s : State),
    (addOverflows a b (u16 (s16 a + s16 b)) = true ↔ s16 a + s16 b < -32768 ∨ 32767 < s16 a + s16 b) ∧
    (subOverflows a b (u16 (s16 a - s16 b)) = true ↔ s16 a - s16 b < -32768 ∨ 32767 < s16 a - s16 b) ∧
    (∃ t, exec (.add a b) s = .next t ∧
      (s.cfg.ovfCheck = true → -32768 ≤ s16 a + s16 b → s16 a + s16 b ≤ 32767 → s16 t.y = s16 a + s16 b) ∧
      (s.cfg.ovfCheck = true → (s16 a + s16 b < -32768 ∨ 32767 < s16 a + s16 b) → t.y = 0x8000#16) ∧
      (s.cfg.ovfCheck = false → t.y = u16 (s16 a + s16 b))) ∧
    (∃ t, exec (.sub a b) s = .next t ∧
      (s.cfg.ovfCheck = true → -32768 ≤ s16 a - s16 b → s16 a - s16 b ≤ 32767 → s16 t.y = s16 a - s16 b) ∧
      (s.cfg.ovfCheck = true → (s16 a - s16 b < -32768 ∨ 32767 < s16 a - s16 b) → t.y = 0x8000#16) ∧
      (s.cfg.ovfCheck = false → t.y = u16 (s16 a - s16 b)))

/-- 41_saturating_add_sub.md R80: SADD, by its pseudocode, ILLEGAL included. -/
def Obligations.SaddByRule : Prop :=
  ∀ (a b : Word16) (s : State),
    let r := addResult s.cfg a b
    (s.cfg.ovfCheck = false → exec (.sadd a b) s = .fault (.illegal .satWithoutOvfCheck)) ∧
    (s.cfg.ovfCheck = true → exec (.sadd a b) s = .next { s with
      phase := s.phase.answered
      ill := false
      y := if r = 0x8000#16 then (if a.getLsbD 15 = false then 0x7FFF#16 else 0x8000#16) else r })

/-- 41_saturating_add_sub.md R81: SSUB, by its pseudocode, ILLEGAL included. -/
def Obligations.SsubByRule : Prop :=
  ∀ (a b : Word16) (s : State),
    let r := subResult s.cfg a b
    (s.cfg.ovfCheck = false → exec (.ssub a b) s = .fault (.illegal .satWithoutOvfCheck)) ∧
    (s.cfg.ovfCheck = true → exec (.ssub a b) s = .next { s with
      phase := s.phase.answered
      ill := false
      y := if r = 0x8000#16 then (if a.getLsbD 15 = false then 0x7FFF#16 else 0x8000#16) else r })

/-- 41_saturating_add_sub.md R83: SSUB is the ideal clamp; SADD is on every pair but one, where it gives MAX. -/
def Obligations.SaturatingAddSubClamp : Prop :=
  ∀ (a b : Word16) (s : State), s.cfg.ovfCheck = true →
    (∃ t, exec (.ssub a b) s = .next t ∧ s16 t.y = max (-32768) (min (s16 a - s16 b) 32767)) ∧
    (∃ t, exec (.sadd a b) s = .next t ∧
      (¬(a = 0x0000#16 ∧ b = 0x8000#16) → s16 t.y = max (-32768) (min (s16 a + s16 b) 32767)) ∧
      (a = 0x0000#16 ∧ b = 0x8000#16 → t.y = 0x7FFF#16))

/-! ## Multiply -/

/-- 42_multiply.md R90, R91 and R92: MUL in every configuration; the exact product stays in its stated range, whose ends
are reached; `MUL 0, x` is 0. -/
def Obligations.MulByRule : Prop :=
  ∀ (a b : Word16) (s : State),
    let p := s16 a * s16 b
    let q := if s.cfg.rounding then rha p 256 else sra p 8
    exec (.mul a b) s = .next { s with
      phase := s.phase.answered
      ill := false
      y := if s.cfg.ovfCheck = true ∧ (q < -32768 ∨ 32767 < q) then 0x8000#16 else u16 q } ∧
    -1073709056 ≤ p ∧ p ≤ 1073741824 ∧
    s16 minWord * s16 maxWord = -1073709056 ∧ s16 minWord * s16 minWord = 1073741824 ∧
    mulResult s.cfg 0x0000#16 b = 0x0000#16

/-- 42_multiply.md R98: the range check of MUL, stated on the exact product. -/
def Obligations.MulRangeCheckOnTheProduct : Prop :=
  ∀ (a b : Word16) (s : State), s.cfg.ovfCheck = true →
    let p := s16 a * s16 b
    let q := mulQuotient s.cfg a b
    (s.cfg.rounding = true →
      (32767 < q ↔ 8388480 ≤ p) ∧ (q = -32768 ↔ -8388735 ≤ p ∧ p ≤ -8388480) ∧ (q < -32768 ↔ p ≤ -8388736)) ∧
    (s.cfg.rounding = false →
      (32767 < q ↔ 8388608 ≤ p) ∧ (q = -32768 ↔ -8388608 ≤ p ∧ p ≤ -8388353) ∧ (q < -32768 ↔ p ≤ -8388609)) ∧
    ∃ t, exec (.mul a b) s = .next t ∧
      (t.y = 0x8000#16 ↔ 32767 < q ∨ q = -32768 ∨ q < -32768) ∧
      (t.y ≠ 0x8000#16 → t.y = u16 q ∧ -32767 ≤ q ∧ q ≤ 32767)

/-- 42_multiply.md R93: SMUL, by its pseudocode, ILLEGAL included; it is the ideal clamp of `Q`. -/
def Obligations.SmulByRule : Prop :=
  ∀ (a b : Word16) (s : State),
    let r := mulResult s.cfg a b
    (s.cfg.ovfCheck = false → exec (.smul a b) s = .fault (.illegal .satWithoutOvfCheck)) ∧
    (s.cfg.ovfCheck = true → exec (.smul a b) s = .next { s with
      phase := s.phase.answered
      ill := false
      y := if r = 0x8000#16 then (if a.getLsbD 15 = b.getLsbD 15 then 0x7FFF#16 else 0x8000#16) else r }) ∧
    (s.cfg.ovfCheck = true → smulResult s.cfg a b = u16 (max (-32768) (min (mulQuotient s.cfg a b) 32767)))

/-- 42_multiply.md R99: SMUL is the ideal clamp of `Q` on every pair, under either ROUNDING. -/
def Obligations.SmulIsTheClampedQuotient : Prop :=
  ∀ (a b : Word16) (s : State), s.cfg.ovfCheck = true →
    ∃ t, exec (.smul a b) s = .next t ∧ t.y = u16 (max (-32768) (min (mulQuotient s.cfg a b) 32767))

/-- 42_multiply.md R97: MUL and SMUL are commutative, in every configuration, outcomes and all. -/
def Obligations.MulCommutes : Prop :=
  ∀ (a b : Word16) (s : State), exec (.mul a b) s = exec (.mul b a) s ∧ exec (.smul a b) s = exec (.smul b a) s

/-- 42_multiply.md R96: the wide-intermediate and the limb-decomposed multiplier both give the rule's result, for every
pair and configuration, so MUL and SMUL do not depend on ALG. -/
def Obligations.MultipliersAgreeWithTheRule : Prop :=
  ∀ (cfg : Config) (a b : Word16),
    mulWide cfg a b = mulResult cfg a b ∧ mulLimb cfg a b = mulResult cfg a b ∧
    ∀ x : Alg, datapathResult { cfg with alg := x } (.mul a b) = mulResult cfg a b ∧
      datapathResult { cfg with alg := x } (.smul a b) = smulResult cfg a b

/-! ## Divide -/

/-- 43_divide.md R110 to R113: DIV in every configuration, and the bounds of `Q`. -/
def Obligations.DivByRule : Prop :=
  ∀ (a b : Word16) (s : State),
    let n := 256 * (s16 a).natAbs
    let d := (s16 b).natAbs
    let qm := if s.cfg.rounding then (2 * n + d) / (2 * d) else n / d
    let q : Int := if a.getLsbD 15 ≠ b.getLsbD 15 then -(qm : Int) else (qm : Int)
    exec (.div a b) s = .next { s with
      phase := s.phase.answered
      ill := false
      y := if b = 0x0000#16 then 0x8000#16
           else if s.cfg.ovfCheck = true ∧ (q < -32768 ∨ 32767 < q) then 0x8000#16 else u16 q } ∧
    (b ≠ 0x0000#16 → -8388608 ≤ q ∧ q ≤ 8388608 ∧ (a = 0x0000#16 → q = 0))

/-- 43_divide.md R114: SDIV, by its pseudocode, ILLEGAL and division by zero included; for a non-zero divisor it is the
ideal clamp of `Q`. -/
def Obligations.SdivByRule : Prop :=
  ∀ (a b : Word16) (s : State),
    let r := divResult s.cfg a b
    (s.cfg.ovfCheck = false → exec (.sdiv a b) s = .fault (.illegal .satWithoutOvfCheck)) ∧
    (s.cfg.ovfCheck = true → exec (.sdiv a b) s = .next { s with
      phase := s.phase.answered
      ill := false
      y := if r = 0x8000#16 then (if a.getLsbD 15 = b.getLsbD 15 then 0x7FFF#16 else 0x8000#16) else r }) ∧
    sdivResult s.cfg a 0x0000#16 = (if a.getLsbD 15 then 0x8000#16 else 0x7FFF#16) ∧
    (s.cfg.ovfCheck = true → b ≠ 0x0000#16 →
      sdivResult s.cfg a b = u16 (max (-32768) (min (divQuotient s.cfg a b) 32767)))

/-- 43_divide.md R119: with checking and a non-zero divisor, DIV gives 0x8000 exactly when `|Q| >= 32768`; rounding never
carries the magnitude up to 32768; SDIV is the clamp of `Q`. -/
def Obligations.DivSentinelAndSdivClamp : Prop :=
  ∀ (a b : Word16) (s : State), s.cfg.ovfCheck = true → b ≠ 0x0000#16 →
    let q := divQuotient s.cfg a b
    (∃ t, exec (.div a b) s = .next t ∧ (t.y = 0x8000#16 ↔ 32768 ≤ |q|)) ∧
    (256 * magnitude a < 32768 * magnitude b → divMagnitude s.cfg a b < 32768) ∧
    (∃ t, exec (.sdiv a b) s = .next t ∧ t.y = u16 (max (-32768) (min q 32767)))

/-- 43_divide.md R116: the wide-intermediate and the restoring divider both give the rule's result, for every pair and
configuration, so DIV and SDIV do not depend on ALG. -/
def Obligations.DividersAgreeWithTheRule : Prop :=
  ∀ (cfg : Config) (a b : Word16),
    divWide cfg a b = divResult cfg a b ∧ divRestoring cfg a b = divResult cfg a b ∧
    ∀ x : Alg, datapathResult { cfg with alg := x } (.div a b) = divResult cfg a b ∧
      datapathResult { cfg with alg := x } (.sdiv a b) = sdivResult cfg a b

/-- 43_divide.md R118: alignment ends within 15 shifts, which `MIN / 1 LSB` needs; the weight is then at most 2^23; the
restoring loop ends within 24 iterations, and within 16 where the weight passed the overflow test. -/
def Obligations.RestoringDividerIsBounded : Prop :=
  (∀ a b : Word16, b ≠ 0x0000#16 →
    absU16 a ≤ (alignedFor a b).1 ∧ (alignedFor a b).2 ≤ 0x800000#24 ∧
    restoringGoesOn (restoringLoop (loopStart a b).1 24 (loopStart a b).2) = false ∧
    ((alignedFor a b).2 < 0x010000#24 →
      (loopStart a b).2.bit ≤ 0x8000#24 ∧
      restoringGoesOn (restoringLoop (loopStart a b).1 16 (loopStart a b).2) = false)) ∧
  (alignLoop (absU16 0x8000#16) 14 (absU16 0x0001#16, 0x000100#24)).1 < absU16 0x8000#16

/-! ## Modulo -/

/-- 44_modulo.md R130 and R131: MOD, by its pseudocode, and its universal corner cases. -/
def Obligations.ModByRule : Prop :=
  ∀ (a b : Word16) (s : State),
    exec (.mod a b) s = .next { s with
      phase := s.phase.answered
      ill := false
      y := if b = 0x0000#16 then 0x8000#16 else u16 (s16 a - s16 b * (s16 a).tdiv (s16 b)) } ∧
    (a ≠ 0x8000#16 → modResult a 0x8000#16 = a) ∧
    (a ≠ 0x0000#16 → modResult a a = 0x0000#16) ∧
    (b ≠ 0x0000#16 → modResult 0x0000#16 b = 0x0000#16 ∧ |s16 (modResult a b)| < |s16 b|)

/-- 44_modulo.md R134: MOD reads neither OVF_CHECK nor ROUNDING, and its result is the remainder with the sign of the
dividend. -/
def Obligations.ModIsTheTruncatingRemainder : Prop :=
  ∀ (a b : Word16) (s : State), ∃ t, exec (.mod a b) s = .next t ∧
    (∀ (o r : Bool), ∃ t', exec (.mod a b) { s with cfg := { s.cfg with ovfCheck := o, rounding := r } } = .next t' ∧
      t'.y = t.y) ∧
    (b ≠ 0x0000#16 →
      s16 a = s16 b * (s16 a).tdiv (s16 b) + s16 t.y ∧ |s16 t.y| < |s16 b| ∧
      (s16 t.y = 0 ∨ (s16 t.y < 0 ↔ s16 a < 0)))

/-- 44_modulo.md R133: the native remainder and the subtraction loop both give the rule's result, so MOD does not depend
on ALG. -/
def Obligations.ModuloUnitsAgreeWithTheRule : Prop :=
  ∀ (cfg : Config) (a b : Word16),
    modNative a b = modResult a b ∧ modLoop a b = modResult a b ∧
    ∀ x : Alg, datapathResult { cfg with alg := x } (.mod a b) = modResult a b

/-! ## Interpolate -/

/-- 45_interpolate.md R141, R142, R143 and R145: the three interpolations by their pseudocode, LERP32 with either
accumulator, and the two general corner cases. -/
def Obligations.LerpByRule : Prop :=
  ∀ (a b : Word16) (s : State),
    (∀ f : Byte, exec (.lerp8 a b f) s = .next { s with
      phase := s.phase.answered
      ill := false
      y := u16 ((s16 a * (256 - (f.toNat : Int)) + s16 b * (f.toNat : Int)) / 256) }) ∧
    (∀ f : Word16, exec (.lerp16 a b f) s = .next { s with
      phase := s.phase.answered
      ill := false
      y := u16 ((s16 a * (65536 - (f.toNat : Int)) + s16 b * (f.toNat : Int)) / 65536) }) ∧
    (∀ f : Word32, exec (.lerp32 a b f) s = .next { s with
      phase := s.phase.answered
      ill := false
      y := if s.cfg.wideAcc = true
           then u16 ((s16 a * (4294967296 - (f.toNat : Int)) + s16 b * (f.toNat : Int)) / 4294967296)
           else Config.lerp32Narrow a b f }) ∧
    lerpResult a b 0x00#8 = a ∧ (∀ f : Byte, lerpResult a a f = a) ∧
    lerpResult a b 0x0000#16 = a ∧ lerpResult a b 0x00000000#32 = a

/-- 45_interpolate.md R144: the blend stays between its end points and is `a` plus the floor of the weighted difference;
the largest weight comes within one step of the weight's resolution of `b`. The three operations respond with the blend in
every state, so OVF_CHECK is not read (LERP32 where WIDE_ACC = true). -/
def Obligations.LerpStaysBetweenItsEndPoints : Prop :=
  (∀ (n : Nat) (a b : Word16) (f : BitVec n),
    let y := lerpResult a b f
    min (s16 a) (s16 b) ≤ s16 y ∧ s16 y ≤ max (s16 a) (s16 b) ∧
    s16 y = s16 a + (s16 b - s16 a) * (f.toNat : Int) / 2 ^ n ∧
    (f.toNat = 2 ^ n - 1 → s16 y = s16 b + (s16 a - s16 b) / 2 ^ n ∧
      2 ^ n * (|s16 y - s16 b| - 1) < |s16 a - s16 b|)) ∧
  (∀ (a b : Word16) (s : State),
    (∀ f : Byte, exec (.lerp8 a b f) s = .next (s.respond (lerpResult a b f))) ∧
    (∀ f : Word16, exec (.lerp16 a b f) s = .next (s.respond (lerpResult a b f))) ∧
    (s.cfg.wideAcc = true → ∀ f : Word32, exec (.lerp32 a b f) s = .next (s.respond (lerpResult a b f))))

/-- 45_interpolate.md R147: n + 16 bits of accumulator are enough, and any wider accumulator gives the same result. -/
def Obligations.LerpAccumulatorWidth : Prop :=
  ∀ (n : Nat) (a b : Word16) (f : BitVec n),
    |lerpAcc a b f| ≤ 32768 * 2 ^ n ∧
    lerpAcc minWord minWord f = -(2 ^ (n + 15)) ∧
    ∀ width, n + 16 ≤ width → lerpDatapath width a b f = lerpResult a b f

/-! ## Configuration -/

/-- 00_scope.md R10: the instance's datapaths give the rules' results, so no result depends on ALG. Add, subtract and
interpolate have one datapath each in the model, whatever ALG (log entry 18). -/
def Obligations.NoResultDependsOnAlg : Prop :=
  ∀ (cfg : Config) (i : Instr),
    datapathResult cfg i = ruleResult cfg i ∧
    ∀ x : Alg, datapathResult { cfg with alg := x } i = datapathResult cfg i

/-- 40_add_sub.md R74 and 41_saturating_add_sub.md R84: add and subtract, saturating or not, read neither ROUNDING nor
ALG. -/
def Obligations.AddSubReadNeitherRoundingNorAlg : Prop :=
  ∀ (a b : Word16) (s : State) (r : Bool) (x : Alg) (i : Instr),
    i = .add a b ∨ i = .sub a b ∨ i = .sadd a b ∨ i = .ssub a b →
    let s' : State := { s with cfg := { s.cfg with rounding := r, alg := x } }
    (∀ f, exec i s = .fault f ↔ exec i s' = .fault f) ∧
    (∀ v, (∃ t, exec i s = .next t ∧ t.y = v) ↔ (∃ t, exec i s' = .next t ∧ t.y = v)) ∧
    datapathResult s'.cfg i = datapathResult s.cfg i

/-- Derived from the contracts of 40_add_sub.md R72, 42_multiply.md R90 and 43_divide.md R111 in the reals: with checking
and rounding, a result that is not the sentinel is exact for ADD and SUB and within half an LSB for MUL and DIV. -/
def Obligations.ResultsApproximateTheRealValues : Prop :=
  ∀ (a b : Word16) (s : State), s.cfg.ovfCheck = true →
    (∃ t, exec (.add a b) s = .next t ∧ (t.y ≠ 0x8000#16 → qvalue t.y = qvalue a + qvalue b)) ∧
    (∃ t, exec (.sub a b) s = .next t ∧ (t.y ≠ 0x8000#16 → qvalue t.y = qvalue a - qvalue b)) ∧
    (∃ t, exec (.mul a b) s = .next t ∧
      (s.cfg.rounding = true → t.y ≠ 0x8000#16 → |qvalue t.y - qvalue a * qvalue b| ≤ 1 / 512)) ∧
    (∃ t, exec (.div a b) s = .next t ∧
      (s.cfg.rounding = true → t.y ≠ 0x8000#16 → |qvalue t.y - qvalue a / qvalue b| ≤ 1 / 512))

/-! ## The handshake, reset and whole runs -/

/-- Derived from 70_reset_and_hazards.md R174: a busy block accepts nothing, an offered request waits behind the others,
and only a presented response can be taken. That the port keeps its values when it is, and that an event that is not due
changes nothing, are the model's choices (log entries 8 and 14). -/
def Obligations.BusyBlockAcceptsNothing : Prop :=
  ∀ (s : State) (r : Request),
    (∀ q, s.phase.outstanding = some q → s.accept = s) ∧
    s.present r = { s with waiting := s.waiting ++ [r] } ∧
    (∀ q n, s.phase = .computing q n → s.take = s) ∧
    (∀ q, s.phase = .presenting q → s.take = { s with phase := .idle } ∧ s.cycle = s)

/-- Derived from 70_reset_and_hazards.md R174 and R176: from acceptance, the block computes for LATENCY cycles, then
presents the response; a step is exactly that for a legal request, and an ILLEGAL one gets its response too. That an
ILLEGAL request has a LATENCY, by its command byte, is the model's choice (log entry 9). -/
def Obligations.StepIsExactForTheCycles : Prop :=
  ∀ (s : State) (r : Request) (rest : List Request),
    (∀ q n, s.phase ≠ .computing q n) → s.waiting = r :: rest →
    let u := State.cycles (Config.latency r.cmd) s.take.accept
    (∀ n, n < Config.latency r.cmd → (State.cycles n s.take.accept).phase = .computing r n) ∧
    u.phase = .presenting r ∧ u.cfg = s.cfg ∧ u.waiting = rest ∧
    (∀ t, step s = .next t → u = t) ∧
    (∀ f, step s = .fault f → u.ill = true)

/-- Derived from 60_exceptions.md R150 and R156: an ILLEGAL response has `ill = 1`, changes nothing else the block keeps,
and the next request is handled normally. Its LATENCY is the model's choice (log entry 9). -/
def Obligations.IllegalResponseLeavesTheNextRequestAlone : Prop :=
  ∀ (s : State) (r : Request) (n : Nat), s.phase = .computing r n → Config.latency r.cmd ≤ n + 1 →
    legalRequest s.cfg r = false →
    s.cycle.ill = true ∧ s.cycle.phase = .presenting r ∧ s.cycle.cfg = s.cfg ∧ s.cycle.waiting = s.waiting ∧
    ∀ q rest v, s.waiting = q :: rest → answer s.cfg q = .ok v →
      ∃ t, step s.cycle = .next t ∧ t.phase = .presenting q ∧ t.y = v ∧ t.ill = false

/-- Derived from 70_reset_and_hazards.md R171: reset closes the outstanding request without a response, and an idle block
has none to close. That a presented response not yet taken is abandoned too is the model's reading (log entry 13), and that
one event is the whole of a reset is its choice (log entry 22). -/
def Obligations.ResetAbandonsTheOutstandingRequest : Prop :=
  ∀ t : Trace,
    (t.event .reset).closed = t.closed ++ (t.st.phase.outstanding.toList.map fun r => (r, none)) ∧
    (t.event .reset).st.phase = .idle ∧ (t.event .reset).offered = t.offered

/-- Derived from 20_memory.md R45 and 70_reset_and_hazards.md R171, R174: every event at the ports keeps the observer
faithful: no request is lost, merged or reordered, and every response taken or presented is the right one. What reset does
to presented and waiting requests, what an event that is not due does, and that one event is the whole of a reset, is the
model's (log entries 13, 14, 21 and 22). -/
def Obligations.EventsKeepTheTraceFaithful : Prop :=
  ∀ (t : Trace) (e : Event), t.faithful → (t.event e).faithful

/-- Derived from 70_reset_and_hazards.md R172, R174: the observer of an idle block nobody has asked anything is
faithful. That nothing waits at the start is the model's choice (log entry 6). -/
def Obligations.StartingTraceIsFaithful : Prop :=
  ∀ cfg : Config, (Trace.start cfg).faithful

/-- Derived from 10_state.md R20, R26 and 70_reset_and_hazards.md R174: a step keeps the handshake coherent (a presented
response is the one its request calls for), keeps the parameters, and leaves the waiting requests in order. -/
def Obligations.StepKeepsTheHandshakeCoherent : Prop :=
  ∀ s t : State, s.coherent = true → step s = .next t →
    t.coherent = true ∧ t.cfg = s.cfg ∧ (t.waiting = s.waiting ∨ ∃ r, s.waiting = r :: t.waiting)

/-- Derived from 70_reset_and_hazards.md R172: the handshake is coherent at reset and after every reset. -/
def Obligations.ResetIsCoherent : Prop :=
  State.reset.coherent = true ∧ ∀ s : State, s.assertReset.coherent = true

/-- Derived from 20_memory.md R45: any number of legal requests are answered one a step, in order, each with its own
answer, and the rest keep waiting. -/
def Obligations.RunAnswersTheQueueInOrder : Prop :=
  ∀ (rs : List Request) (r : Request) (rest : List Request) (s : State),
    (∀ q n, s.phase ≠ .computing q n) → s.waiting = rs ++ r :: rest →
    (∀ q ∈ rs, legalRequest s.cfg q = true) →
    ∀ v, answer s.cfg r = .ok v →
      ∃ t, Host.Core.run Sys2Proof.core (rs.length + 1) s = .next t ∧
        t.cfg = s.cfg ∧ t.waiting = rest ∧ t.phase = .presenting r ∧ t.response = { y := v, ill := false }

/-- Derived from 60_exceptions.md R150: a host that issues only legal requests never meets a fault or a refusal, however
long the run. -/
def Obligations.LegalRequestsNeverFault : Prop :=
  ∀ (n : Nat) (s : State), s.onlyLegal = true →
    ∃ t, Host.Core.run Sys2Proof.core n s = .next t ∧ t.onlyLegal = true ∧ t.cfg = s.cfg
end

