-- ==== Sys2Proof/Laws/Arith.lean ====
section
/-! SUPPORT. The primitives of 00_scope.md section 5 as integer facts: ranges, signs, and wrapping to 16 bits. -/

namespace Sys2Proof.Machine

theorem s16_lower (v : Word16) : -32768 ≤ s16 v := by
  have := BitVec.le_two_mul_toInt (x := v); simp [s16] at *; omega

theorem s16_upper (v : Word16) : s16 v ≤ 32767 := by
  have := BitVec.two_mul_toInt_lt (x := v); simp [s16] at *; omega

/-- `s16` is the pattern read unsigned, less 65536 where bit 15 is set. -/
theorem s16_eq (v : Word16) : s16 v = if neg v then (v.toNat : Int) - 65536 else v.toNat := by
  unfold s16 neg
  rw [BitVec.toInt_eq_msb_cond]
  norm_num

/-- Bit 15, as the statements write it. -/
theorem getLsbD_15 (v : Word16) : v.getLsbD 15 = neg v := by simp [neg, BitVec.msb_eq_getLsbD_last]

theorem getElem_15 (v : Word16) : v[15] = neg v := by simp [neg, BitVec.msb_eq_getLsbD_last]

theorem neg_iff (v : Word16) : neg v = true ↔ s16 v < 0 := by
  have := v.isLt
  rw [s16_eq]
  split
  · next h => simp only [h, true_iff]; omega
  · next h => simp only [Bool.not_eq_true] at h; simp only [h, Bool.false_eq_true, false_iff]; omega

theorem s16_injective {v w : Word16} (h : s16 v = s16 w) : v = w := BitVec.eq_of_toInt_eq h

/-- Wrapping a number in range changes nothing. -/
theorem s16_u16 {n : Int} (hl : -32768 ≤ n) (hu : n ≤ 32767) : s16 (u16 n) = n := by
  simp only [s16, u16, BitVec.toInt_ofInt]
  exact Int.bmod_eq_of_le (by omega) (by omega)

@[simp] theorem u16_s16 (v : Word16) : u16 (s16 v) = v := BitVec.ofInt_toInt

theorem magnitude_le (v : Word16) : magnitude v ≤ 32768 := by
  have := s16_lower v; have := s16_upper v; unfold magnitude; omega

theorem magnitude_zero_iff (v : Word16) : magnitude v = 0 ↔ v = 0x0000#16 := by
  unfold magnitude
  rw [Int.natAbs_eq_zero]
  exact ⟨fun h => s16_injective (h.trans (by decide)), fun h => by rw [h]; decide⟩

@[simp] theorem s16_sentinel : s16 sentinel = -32768 := by decide
@[simp] theorem s16_minWord : s16 minWord = -32768 := by decide
@[simp] theorem s16_maxWord : s16 maxWord = 32767 := by decide

/-- A pattern is the sentinel exactly where its value is −32768. -/
theorem reportsOverflow_iff (v : Word16) : reportsOverflow v = true ↔ s16 v = -32768 := by
  unfold reportsOverflow
  rw [beq_iff_eq]
  exact ⟨fun h => by rw [h]; decide, fun h => s16_injective (h.trans (by decide))⟩

theorem outOfRange_iff (q : Int) : outOfRange q = true ↔ q < -32768 ∨ 32767 < q := by simp [outOfRange]

theorem signsDiffer_comm (a b : Word16) : signsDiffer a b = signsDiffer b a := by
  simp [signsDiffer, Bool.xor_comm]

theorem product_comm (a b : Word16) : product a b = product b a := by simp [product, Int.mul_comm]

end Sys2Proof.Machine
end

