-- ==== Sys2Proof/Laws/State.lean ====
section
/-! SUPPORT. One lemma per field of State for each operation that updates it, so that no proof unfolds a record update. -/

namespace Sys2Proof.Machine

section
variable (s : State) (v : Word16) (r : Request) (n : Nat)

@[simp] theorem respond_cfg : (s.respond v).cfg = s.cfg := rfl
@[simp] theorem respond_waiting : (s.respond v).waiting = s.waiting := rfl
@[simp] theorem respond_phase : (s.respond v).phase = s.phase.answered := rfl
@[simp] theorem respond_y : (s.respond v).y = v := rfl
@[simp] theorem respond_ill : (s.respond v).ill = false := rfl
@[simp] theorem respond_freeCount : (s.respond v).freeCount = s.freeCount := rfl
@[simp] theorem respond_response : (s.respond v).response = { y := v, ill := false } := rfl

@[simp] theorem respondIllegal_cfg : s.respondIllegal.cfg = s.cfg := rfl
@[simp] theorem respondIllegal_waiting : s.respondIllegal.waiting = s.waiting := rfl
@[simp] theorem respondIllegal_phase : s.respondIllegal.phase = s.phase.answered := rfl
@[simp] theorem respondIllegal_ill : s.respondIllegal.ill = true := rfl
@[simp] theorem respondIllegal_response_ill : s.respondIllegal.response.ill = true := rfl

@[simp] theorem present_cfg : (s.present r).cfg = s.cfg := rfl
@[simp] theorem present_waiting : (s.present r).waiting = s.waiting ++ [r] := rfl
@[simp] theorem present_phase : (s.present r).phase = s.phase := rfl
@[simp] theorem present_response : (s.present r).response = s.response := rfl

@[simp] theorem assertReset_cfg : s.assertReset.cfg = s.cfg := rfl
@[simp] theorem assertReset_waiting : s.assertReset.waiting = s.waiting := rfl
@[simp] theorem assertReset_phase : s.assertReset.phase = .idle := rfl

@[simp] theorem withRequest_cfg : (s.withRequest r).cfg = s.cfg := rfl
@[simp] theorem withRequest_waiting : (s.withRequest r).waiting = r :: s.waiting := rfl
@[simp] theorem withRequest_phase : (s.withRequest r).phase = s.phase.ready := rfl

@[simp] theorem answered_idle : Phase.idle.answered = .idle := rfl
@[simp] theorem answered_computing : (Phase.computing r n).answered = .presenting r := rfl
@[simp] theorem answered_presenting : (Phase.presenting r).answered = .presenting r := rfl

@[simp] theorem outstanding_idle : Phase.idle.outstanding = none := rfl
@[simp] theorem outstanding_computing : (Phase.computing r n).outstanding = some r := rfl
@[simp] theorem outstanding_presenting : (Phase.presenting r).outstanding = some r := rfl

@[simp] theorem take_cfg : s.take.cfg = s.cfg := by unfold State.take; split <;> rfl
@[simp] theorem take_waiting : s.take.waiting = s.waiting := by unfold State.take; split <;> rfl
@[simp] theorem take_y : s.take.y = s.y := by unfold State.take; split <;> rfl
@[simp] theorem take_ill : s.take.ill = s.ill := by unfold State.take; split <;> rfl
@[simp] theorem take_response : s.take.response = s.response := by unfold State.take; split <;> rfl
@[simp] theorem take_freeCount : s.take.freeCount = s.freeCount := by unfold State.take; split <;> rfl

@[simp] theorem accept_cfg : s.accept.cfg = s.cfg := by unfold State.accept; split <;> rfl
@[simp] theorem accept_y : s.accept.y = s.y := by unfold State.accept; split <;> rfl
@[simp] theorem accept_ill : s.accept.ill = s.ill := by unfold State.accept; split <;> rfl
@[simp] theorem accept_response : s.accept.response = s.response := by unfold State.accept; split <;> rfl
@[simp] theorem accept_freeCount : s.accept.freeCount = s.freeCount := by unfold State.accept; split <;> rfl

@[simp] theorem fetch_cfg : s.fetch.cfg = s.cfg := by simp [State.fetch]
@[simp] theorem fetch_y : s.fetch.y = s.y := by simp [State.fetch]
@[simp] theorem fetch_ill : s.fetch.ill = s.ill := by simp [State.fetch]
@[simp] theorem fetch_freeCount : s.fetch.freeCount = s.freeCount := by simp [State.fetch]

end

end Sys2Proof.Machine
end

