-- ==== Sys2Proof/Laws/Ops.lean ====
section
/-! SUPPORT. For each shared operation, once, everything it can do. -/

namespace Sys2Proof.Machine

/-! The handshake. -/

/-- Taking: a presented response leaves the block idle, and nothing else happens. -/
theorem take_of_presenting {s : State} {r : Request} (h : s.phase = .presenting r) :
    s.take = { s with phase := .idle } := by simp [State.take, h]

theorem take_of_idle {s : State} (h : s.phase = .idle) : s.take = s := by simp [State.take, h]

theorem take_of_computing {s : State} {r : Request} {n : Nat} (h : s.phase = .computing r n) : s.take = s := by
  simp [State.take, h]

/-- Accepting: an idle block with a request waiting becomes busy with it. -/
theorem accept_of_waiting {s : State} {r : Request} {rest : List Request} (h : s.phase = .idle)
    (hw : s.waiting = r :: rest) : s.accept = { s with waiting := rest, phase := .computing r 0 } := by
  simp [State.accept, h, hw]

theorem accept_of_none {s : State} (hw : s.waiting = []) : s.accept = s := by simp [State.accept, hw]

theorem accept_of_busy {s : State} (h : s.phase ≠ .idle) : s.accept = s := by
  unfold State.accept
  split
  · next hp _ => exact absurd hp h
  · rfl

/-- What a step finds before it computes, in each of the three phases. -/
theorem fetch_of_computing {s : State} {r : Request} {n : Nat} (h : s.phase = .computing r n) : s.fetch = s := by
  rw [State.fetch, take_of_computing h, accept_of_busy (by simp [h])]

theorem fetch_of_waiting {s : State} {r : Request} {rest : List Request} (h : ∀ q n, s.phase ≠ .computing q n)
    (hw : s.waiting = r :: rest) : s.fetch = { s with waiting := rest, phase := .computing r 0 } := by
  cases hp : s.phase with
  | idle => rw [State.fetch, take_of_idle hp, accept_of_waiting hp hw]
  | computing q n => exact absurd hp (h q n)
  | presenting q => rw [State.fetch, take_of_presenting hp]; exact accept_of_waiting rfl hw

theorem fetch_of_none {s : State} (h : ∀ q n, s.phase ≠ .computing q n) (hw : s.waiting = []) :
    s.fetch = { s with phase := .idle } := by
  cases hp : s.phase with
  | idle => rw [State.fetch, take_of_idle hp, accept_of_none hw, ← hp]
  | computing q n => exact absurd hp (h q n)
  | presenting q => rw [State.fetch, take_of_presenting hp]; exact accept_of_none hw

/-! The meanings. -/

/-- A saturating operation responds, or faults where OVF_CHECK = false. -/
theorem respondIfChecking_eq (v : Word16) (s : State) :
    respondIfChecking v s =
      if s.cfg.ovfCheck then .next (s.respond v) else .fault (.illegal .satWithoutOvfCheck) := rfl

/-- All that an instruction can do: respond with its rule's result where the instance offers it, else fault. -/
theorem exec_eq (i : Instr) (s : State) :
    exec i s = if i.availableIn s.cfg then .next (s.respond (ruleResult s.cfg i))
      else .fault (.illegal .satWithoutOvfCheck) := by
  cases i <;>
    simp [exec, execAdd, execSub, execSadd, execSsub, execMul, execSmul, execDiv, execSdiv, execMod, execLerp8,
      execLerp16, execLerp32, respondIfChecking_eq, Instr.availableIn, Instr.saturating, ruleResult]

/-- A next state of an instruction is its response. -/
theorem exec_next {i : Instr} {s t : State} (h : exec i s = .next t) :
    i.availableIn s.cfg = true ∧ t = s.respond (ruleResult s.cfg i) := by
  rw [exec_eq] at h
  split at h
  · next ha => exact ⟨ha, by simpa using h.symm⟩
  · simp at h

/-- The checks let a request through where the decoder does and the instance offers the operation. -/
theorem checked_ok {cfg : Config} {r : Request} {i : Instr} :
    checked cfg r = .ok i ↔ decode r = .ok i ∧ i.availableIn cfg = true := by
  unfold checked
  cases decode r with
  | error c => simp
  | ok j =>
    by_cases hj : j.availableIn cfg = true
    · simp only [hj, if_true, Except.ok.injEq]
      exact ⟨fun h => ⟨h, h ▸ hj⟩, And.left⟩
    · simp only [hj, Bool.false_eq_true, if_false, reduceCtorEq, Except.ok.injEq, false_iff, not_and]
      exact fun h => h ▸ hj

/-- The answer to a legal request. -/
theorem answer_ok {cfg : Config} {r : Request} {v : Word16} :
    answer cfg r = .ok v ↔ ∃ i, checked cfg r = .ok i ∧ v = ruleResult cfg i := by
  unfold answer
  cases checked cfg r with
  | error c => simp
  | ok i => simp [eq_comm]

/-- Every request has an answer: a result, or the cause of its ILLEGAL response. -/
theorem answer_cases (cfg : Config) (r : Request) :
    (∃ v, answer cfg r = .ok v) ∨ ∃ c, answer cfg r = .error c := by
  cases answer cfg r <;> simp

/-- The hardware raises ILLEGAL exactly where the rules do: it does the same checks. -/
theorem hardwareAnswer_error {cfg : Config} {r : Request} {c : IllegalCause} :
    hardwareAnswer cfg r = .error c ↔ answer cfg r = .error c := by
  unfold hardwareAnswer answer
  cases checked cfg r <;> simp

/-! Cycles. -/

theorem latency_pos (c : Byte) : 0 < Config.latency c := Nat.succ_pos _

/-- A cycle before the last one only counts. -/
theorem cycle_of_early {s : State} {r : Request} {n : Nat} (h : s.phase = .computing r n)
    (hn : n + 1 < Config.latency r.cmd) : s.cycle = { s with phase := .computing r (n + 1) } := by
  simp [State.cycle, h, hn]

/-- The last cycle presents the answer. -/
theorem cycle_of_due {s : State} {r : Request} {n : Nat} (h : s.phase = .computing r n)
    (hn : ¬n + 1 < Config.latency r.cmd) : s.cycle = s.presentAnswer r := by
  simp [State.cycle, h, hn]

/-- The answer the port shows: the result, or the ILLEGAL response. -/
theorem presentAnswer_ok {s : State} {r : Request} {v : Word16} (h : hardwareAnswer s.cfg r = .ok v) :
    s.presentAnswer r = s.respond v := by simp [State.presentAnswer, h]

theorem presentAnswer_error {s : State} {r : Request} {c : IllegalCause} (h : hardwareAnswer s.cfg r = .error c) :
    s.presentAnswer r = s.respondIllegal := by simp [State.presentAnswer, h]

@[simp] theorem cycles_zero (s : State) : State.cycles 0 s = s := rfl

theorem cycles_succ (n : Nat) (s : State) : State.cycles (n + 1) s = State.cycles n s.cycle := rfl

/-- The last of several cycles taken apart. -/
theorem cycles_succ_last (n : Nat) (s : State) : State.cycles (n + 1) s = (State.cycles n s).cycle := by
  induction n generalizing s with
  | zero => rfl
  | succ n ih => rw [cycles_succ, ih, cycles_succ]

/-! Runs of the host's machine. -/

/-- A run of any machine whose first step answers a next state goes on from there. -/
theorem run_succ (M : Host.Core) (n : Nat) (s t : M.State) (h : M.step s = .next t) : M.run (n + 1) s = M.run n t := by
  rw [Host.Core.run, h]

theorem run_zero (s : State) : Host.Core.run Sys2Proof.core 0 s = .next s := rfl

/-- A run whose first step answers a next state goes on from there. -/
theorem run_succ_of_next {n : Nat} {s t : State} (h : step s = .next t) :
    Host.Core.run Sys2Proof.core (n + 1) s = Host.Core.run Sys2Proof.core n t :=
  run_succ Sys2Proof.core n s t h

end Sys2Proof.Machine
end

