-- ==== Sys2Proof/Laws/PerInstr.lean ====
section
/-! SUPPORT. Statements about every instruction as syntax, one lemma per constructor. -/

/-! CommandByte: the request an instruction is encoded as carries the instruction's command byte and passes the checks
of 30_encoding.md R52 and R53. -/

def Sys2Proof.Laws.CommandByte.Statement (i : Sys2Proof.Instr) : Prop :=
  (Sys2Proof.encode i).wellFormed = true ∧ (Sys2Proof.encode i).cmd = i.command

namespace Sys2Proof.Laws.CommandByte

/-- Only the command byte decides whether a request is well formed. -/
theorem wellFormed_of_cmd {r : Request} {c : Byte} (hc : r.cmd = c)
    (h : Request.wellFormed ⟨c, 0#16, 0#16, 0#32⟩ = true) : r.wellFormed = true := by
  subst hc; exact h

theorem add (a b : Word16) : Statement (.add a b) := ⟨wellFormed_of_cmd (c := 0x01#8) rfl (by decide), rfl⟩
theorem sub (a b : Word16) : Statement (.sub a b) := ⟨wellFormed_of_cmd (c := 0x02#8) rfl (by decide), rfl⟩
theorem sadd (a b : Word16) : Statement (.sadd a b) := ⟨wellFormed_of_cmd (c := 0x03#8) rfl (by decide), rfl⟩
theorem ssub (a b : Word16) : Statement (.ssub a b) := ⟨wellFormed_of_cmd (c := 0x04#8) rfl (by decide), rfl⟩
theorem mul (a b : Word16) : Statement (.mul a b) := ⟨wellFormed_of_cmd (c := 0x05#8) rfl (by decide), rfl⟩
theorem smul (a b : Word16) : Statement (.smul a b) := ⟨wellFormed_of_cmd (c := 0x06#8) rfl (by decide), rfl⟩
theorem div (a b : Word16) : Statement (.div a b) := ⟨wellFormed_of_cmd (c := 0x07#8) rfl (by decide), rfl⟩
theorem sdiv (a b : Word16) : Statement (.sdiv a b) := ⟨wellFormed_of_cmd (c := 0x08#8) rfl (by decide), rfl⟩
theorem mod (a b : Word16) : Statement (.mod a b) := ⟨wellFormed_of_cmd (c := 0x09#8) rfl (by decide), rfl⟩
theorem lerp8 (a b : Word16) (f : Byte) : Statement (.lerp8 a b f) := ⟨wellFormed_of_cmd (c := 0x0A#8) rfl (by decide), rfl⟩
theorem lerp16 (a b : Word16) (f : Word16) : Statement (.lerp16 a b f) := ⟨wellFormed_of_cmd (c := 0x0B#8) rfl (by decide), rfl⟩
theorem lerp32 (a b : Word16) (f : Word32) : Statement (.lerp32 a b f) := ⟨wellFormed_of_cmd (c := 0x0C#8) rfl (by decide), rfl⟩

end Sys2Proof.Laws.CommandByte
end

