-- ==== Sys2Proof/Machine/TextForm.lean ====
section
/-! DEFINITION. The text form of requests and results (30_encoding.md R57) and the notation `enc(x)` (00_scope.md section
5). It is a notation for test vectors and host programs, and no part of the block. -/

namespace Sys2Proof.Machine

/-- The mnemonic (30_encoding.md R51). -/
def mnemonic : Instr → String
  | .add _ _      => "ADD"
  | .sub _ _      => "SUB"
  | .sadd _ _     => "SADD"
  | .ssub _ _     => "SSUB"
  | .mul _ _      => "MUL"
  | .smul _ _     => "SMUL"
  | .div _ _      => "DIV"
  | .sdiv _ _     => "SDIV"
  | .mod _ _      => "MOD"
  | .lerp8 _ _ _  => "LERP8"
  | .lerp16 _ _ _ => "LERP16"
  | .lerp32 _ _ _ => "LERP32"

/-- A hexadecimal digit, as the spec writes it. -/
def hexDigit (n : Nat) : Char :=
  (['0', '1', '2', '3', '4', '5', '6', '7', '8', '9', 'A', 'B', 'C', 'D', 'E', 'F']).getD n '0'

/-- A Word16 operand in the text form: `0x` and four hexadecimal digits. -/
def hexWord (v : Word16) : List Char :=
  ['0', 'x', hexDigit (v.toNat / 4096), hexDigit (v.toNat / 256 % 16), hexDigit (v.toNat / 16 % 16),
   hexDigit (v.toNat % 16)]

/-- The text form of a request, `MNEMONIC a, b` or `MNEMONIC a, b, f` with `f` in decimal (30_encoding.md R57). -/
def text (i : Instr) : String :=
  let ab (a b : Word16) : String :=
    mnemonic i ++ " " ++ String.ofList (hexWord a) ++ ", " ++ String.ofList (hexWord b)
  match i with
  | .add a b      => ab a b
  | .sub a b      => ab a b
  | .sadd a b     => ab a b
  | .ssub a b     => ab a b
  | .mul a b      => ab a b
  | .smul a b     => ab a b
  | .div a b      => ab a b
  | .sdiv a b     => ab a b
  | .mod a b      => ab a b
  | .lerp8 a b f  => ab a b ++ ", " ++ toString f.toNat
  | .lerp16 a b f => ab a b ++ ", " ++ toString f.toNat
  | .lerp32 a b f => ab a b ++ ", " ++ toString f.toNat

/-- The command byte a name stands for: the mnemonics, and the source's names as lower-case aliases (30_encoding.md
R57). There is no pseudo-instruction. -/
def commandNames : List (String × Byte) := [
  ("ADD", 0x01#8), ("add", 0x01#8),
  ("SUB", 0x02#8), ("sub", 0x02#8),
  ("SADD", 0x03#8), ("sadd", 0x03#8),
  ("SSUB", 0x04#8), ("ssub", 0x04#8),
  ("MUL", 0x05#8), ("mul", 0x05#8),
  ("SMUL", 0x06#8), ("smul", 0x06#8),
  ("DIV", 0x07#8), ("div", 0x07#8),
  ("SDIV", 0x08#8), ("sdiv", 0x08#8),
  ("MOD", 0x09#8), ("mod", 0x09#8),
  ("LERP8", 0x0A#8), ("lerp8", 0x0A#8),
  ("LERP16", 0x0B#8), ("lerp16", 0x0B#8),
  ("LERP32", 0x0C#8), ("lerp32", 0x0C#8)]

/-- The command byte of a mnemonic or alias. -/
def commandOfName (n : String) : Option Byte := (commandNames.find? fun p => p.1 == n).map Prod.snd

/-- The source's constants, which may be written as operands (30_encoding.md R57, 10_state.md R27). -/
def constantOfName (n : String) : Option Word16 :=
  (([("ONE", one), ("MAX", maxWord), ("MIN", minWord), ("OVERFLOW_SENTINEL", sentinel)] : List (String × Word16)).find?
    fun p => p.1 == n).map Prod.snd

/-- A result as text: `-> y`, or `-> ILLEGAL` (30_encoding.md R57). -/
def resultText (p : Response) : String :=
  if p.ill then "-> ILLEGAL" else "-> " ++ String.ofList (hexWord p.y)

/-- `enc(x)`: the pattern `u16(x * 256)` of a real `x` that is a multiple of 1/256 in range (00_scope.md section 5). -/
def enc (x : Rat) : Word16 := u16 (x * 256).floor

end Sys2Proof.Machine
end

