-- ==== Sys2Proof/Tests/Slice0.lean ====
section
/-! SUPPORT. Small tests. Expected values come from spec/95_test_vectors.md (the section is named) or from a rule's own
corner cases; the witnesses at the end show that the hypotheses of each statement can be met, clause by clause. -/

namespace Sys2Proof.Tests
open Sys2Proof Sys2Proof.Machine

/-- A block with the given OVF_CHECK and ROUNDING, and one request waiting. -/
def asked (o r : Bool) (q : Request) : State :=
  { State.reset with cfg := { Config.standard with ovfCheck := o, rounding := r }, waiting := [q] }

/-- What stands on the response port after a step; none where the step stopped. -/
def portAfter (o : Host.Outcome State Fault Refusal) : Option Response :=
  match o with
  | .next t    => some t.response
  | .fault _   => none
  | .refused _ => none

/-- Why a step stopped. -/
def faultOf (o : Host.Outcome State Fault Refusal) : Option Fault :=
  match o with
  | .next _    => none
  | .fault f   => some f
  | .refused _ => none

/-- The response to a request under OVF_CHECK and ROUNDING. -/
def answered (o r : Bool) (q : Request) : Option Response := portAfter (step (asked o r q))

/-! Decoding: command bytes written out from 30_encoding.md R50 and R51, `0000` and the code. -/

theorem test_decode_add_sub :
    decode ⟨0b00000001#8, 0x1234#16, 0x5678#16, 0xFFFFFFFF#32⟩ = .ok (.add 0x1234#16 0x5678#16) ∧
    decode ⟨0b00000010#8, 0x1234#16, 0x5678#16, 0xFFFFFFFF#32⟩ = .ok (.sub 0x1234#16 0x5678#16) := by decide

theorem test_decode_saturating_add_sub :
    decode ⟨0b00000011#8, 0x1234#16, 0x5678#16, 0x00000000#32⟩ = .ok (.sadd 0x1234#16 0x5678#16) ∧
    decode ⟨0b00000100#8, 0x1234#16, 0x5678#16, 0x00000000#32⟩ = .ok (.ssub 0x1234#16 0x5678#16) := by decide

theorem test_decode_multiply :
    decode ⟨0b00000101#8, 0x1234#16, 0x5678#16, 0x00000000#32⟩ = .ok (.mul 0x1234#16 0x5678#16) ∧
    decode ⟨0b00000110#8, 0x1234#16, 0x5678#16, 0x00000000#32⟩ = .ok (.smul 0x1234#16 0x5678#16) := by decide

theorem test_decode_divide :
    decode ⟨0b00000111#8, 0x1234#16, 0x5678#16, 0x00000000#32⟩ = .ok (.div 0x1234#16 0x5678#16) ∧
    decode ⟨0b00001000#8, 0x1234#16, 0x5678#16, 0x00000000#32⟩ = .ok (.sdiv 0x1234#16 0x5678#16) := by decide

theorem test_decode_modulo :
    decode ⟨0b00001001#8, 0x1234#16, 0x5678#16, 0x00000000#32⟩ = .ok (.mod 0x1234#16 0x5678#16) := by decide

theorem test_decode_interpolate :
    decode ⟨0b00001010#8, 0x1234#16, 0x5678#16, 0x89ABCDEF#32⟩ = .ok (.lerp8 0x1234#16 0x5678#16 0xEF#8) ∧
    decode ⟨0b00001011#8, 0x1234#16, 0x5678#16, 0x89ABCDEF#32⟩ = .ok (.lerp16 0x1234#16 0x5678#16 0xCDEF#16) ∧
    decode ⟨0b00001100#8, 0x1234#16, 0x5678#16, 0x89ABCDEF#32⟩ = .ok (.lerp32 0x1234#16 0x5678#16 0x89ABCDEF#32) := by
  decide

/-- 95_test_vectors.md 2.7: reserved codes and reserved bits, and which is checked first. -/
theorem test_decode_reserved :
    decode ⟨0x00#8, 0#16, 0#16, 0#32⟩ = .error .reservedOp ∧ decode ⟨0x0D#8, 0#16, 0#16, 0#32⟩ = .error .reservedOp ∧
    decode ⟨0x0F#8, 0#16, 0#16, 0#32⟩ = .error .reservedOp ∧ decode ⟨0x11#8, 0#16, 0#16, 0#32⟩ = .error .reservedBits ∧
    decode ⟨0x10#8, 0#16, 0#16, 0#32⟩ = .error .reservedBits ∧ decode ⟨0xFF#8, 0#16, 0#16, 0#32⟩ = .error .reservedBits := by
  decide

/-- 30_encoding.md R57: the text form, and 00_scope.md section 5: `enc(-1.5)` is 0xFE80. -/
theorem test_text : text (.add 0x7FFF#16 0xFE80#16) = "ADD 0x7FFF, 0xFE80" := by decide +kernel
theorem test_names : commandOfName "sadd" = some 0x03#8 ∧ commandOfName "LERP32" = some 0x0C#8 ∧
    constantOfName "MAX" = some 0x7FFF#16 := by decide +kernel
theorem test_enc : enc (-3 / 2) = 0xFE80#16 := by decide +kernel

/-! WellFormed: one ill-formed request for each check. -/

theorem test_wellFormed_refuses_reserved_bits : Request.wellFormed ⟨0x11#8, 0#16, 0#16, 0#32⟩ = false := by decide
theorem test_wellFormed_refuses_reserved_op : Request.wellFormed ⟨0x0D#8, 0#16, 0#16, 0#32⟩ = false := by decide
theorem test_wellFormed_accepts_lerp32 : Request.wellFormed ⟨0x0C#8, 0#16, 0#16, 0#32⟩ = true := by decide
theorem test_availableIn_refuses_saturating :
    (Instr.sadd 0#16 0#16).availableIn { Config.standard with ovfCheck := false } = false := by decide

/-! The operations, each from 95_test_vectors.md section 2. -/

theorem test_add_overflow : answered true true ⟨0x01#8, 0x7FFF#16, 0x0100#16, 0#32⟩ = some ⟨0x8000#16, false⟩ := by decide
theorem test_add_wraps : answered false true ⟨0x01#8, 0x7FFF#16, 0x0100#16, 0#32⟩ = some ⟨0x80FF#16, false⟩ := by decide
theorem test_sub_overflow : answered true true ⟨0x02#8, 0x7FFF#16, 0xFFFF#16, 0#32⟩ = some ⟨0x8000#16, false⟩ := by decide
theorem test_sub_order : answered true true ⟨0x02#8, 0x0300#16, 0x0100#16, 0#32⟩ = some ⟨0x0200#16, false⟩ := by decide
theorem test_sadd_alias : answered true true ⟨0x03#8, 0x0000#16, 0x8000#16, 0#32⟩ = some ⟨0x7FFF#16, false⟩ := by decide
theorem test_sadd_illegal :
    faultOf (step (asked false true ⟨0x03#8, 0x0100#16, 0x0200#16, 0#32⟩)) = some (.illegal .satWithoutOvfCheck) := by
  decide
theorem test_ssub_max : answered true true ⟨0x04#8, 0x7FFF#16, 0xFF00#16, 0#32⟩ = some ⟨0x7FFF#16, false⟩ := by decide
theorem test_ssub_min : answered true true ⟨0x04#8, 0x8000#16, 0x0100#16, 0#32⟩ = some ⟨0x8000#16, false⟩ := by decide
theorem test_mul_tie_away : answered true true ⟨0x05#8, 0x0001#16, 0x8080#16, 0#32⟩ = some ⟨0xFF80#16, false⟩ := by decide
theorem test_mul_floor : answered true false ⟨0x05#8, 0xFFFF#16, 0x0040#16, 0#32⟩ = some ⟨0xFFFF#16, false⟩ := by decide
theorem test_smul_min : answered true true ⟨0x06#8, 0x7FFF#16, 0xFE00#16, 0#32⟩ = some ⟨0x8000#16, false⟩ := by decide
theorem test_smul_max : answered true true ⟨0x06#8, 0x8000#16, 0xFF00#16, 0#32⟩ = some ⟨0x7FFF#16, false⟩ := by decide
theorem test_div_truncates : answered true false ⟨0x07#8, 0xFF00#16, 0x0180#16, 0#32⟩ = some ⟨0xFF56#16, false⟩ := by decide
theorem test_div_wraps : answered false true ⟨0x07#8, 0x7FFF#16, 0x0001#16, 0#32⟩ = some ⟨0xFF00#16, false⟩ := by decide
theorem test_sdiv_by_zero : answered true true ⟨0x08#8, 0xFF00#16, 0x0000#16, 0#32⟩ = some ⟨0x8000#16, false⟩ := by decide
theorem test_sdiv_max : answered true true ⟨0x08#8, 0x6400#16, 0x0040#16, 0#32⟩ = some ⟨0x7FFF#16, false⟩ := by decide
theorem test_mod_sign : answered true true ⟨0x09#8, 0xFB00#16, 0xFD00#16, 0#32⟩ = some ⟨0xFE00#16, false⟩ := by decide
theorem test_mod_by_zero : answered false false ⟨0x09#8, 0x1234#16, 0x0000#16, 0#32⟩ = some ⟨0x8000#16, false⟩ := by decide
theorem test_lerp8_weight : answered true true ⟨0x0A#8, 0x0100#16, 0x0300#16, 0xFFFFFF40#32⟩ = some ⟨0x0180#16, false⟩ := by decide
theorem test_lerp8_floor : answered true true ⟨0x0A#8, 0x0000#16, 0xFFFF#16, 0x80#32⟩ = some ⟨0xFFFF#16, false⟩ := by decide
theorem test_lerp16_max : answered true true ⟨0x0B#8, 0x8000#16, 0x7FFF#16, 0xFFFF#32⟩ = some ⟨0x7FFE#16, false⟩ := by decide
theorem test_lerp32_quarter : answered true true ⟨0x0C#8, 0x0100#16, 0x0500#16, 0x40000000#32⟩ = some ⟨0x0200#16, false⟩ := by decide

/-- 95_test_vectors.md 2.7: under WIDE_ACC = false, LERP32 answers with the open parameter. -/
theorem test_lerp32_narrow :
    portAfter (exec (.lerp32 0x0100#16 0x0500#16 0x40000000#32)
      { State.reset with cfg := { Config.standard with wideAcc := false } }) =
      some ⟨Config.lerp32Narrow 0x0100#16 0x0500#16 0x40000000#32, false⟩ := rfl

/-! The datapaths: traces T3, T6 and T7 of 95_test_vectors.md section 3, and the corner of 43_divide.md R118. -/

theorem test_limb_negative_tie : mulLimb Config.standard 0xFFFF#16 0x0080#16 = 0xFFFF#16 := by decide
theorem test_restoring_min_by_minus_one : divRestoring Config.standard 0x8000#16 0xFF00#16 = 0x8000#16 := by decide
theorem test_restoring_one_by_min : divRestoring Config.standard 0x0100#16 0x8000#16 = 0xFFFE#16 := by decide
theorem test_alignment_min_by_minus_one : alignedFor 0x8000#16 0xFF00#16 = (0x8000#16, 0x008000#24) := by decide
theorem test_mod_loop : modLoop 0x8000#16 0x0300#16 = 0xFE00#16 := by decide

/-! The host's use of the machine. -/

theorem test_withFetchWord_runs_div :
    portAfter (step (State.reset.withFetchWord 8 0x07)) = some ⟨0x8000#16, false⟩ := by decide

theorem test_idle_without_request : (step State.reset : Host.Outcome State Fault Refusal) = .next State.reset := rfl

/-! Witnesses: concrete inputs that meet the hypotheses of the statements. -/

/-- A request for ADD 1.0, 2.0. -/
def addOne : Request := ⟨0x01#8, 0x0100#16, 0x0200#16, 0#32⟩

/-- A request with a reserved code. -/
def reserved : Request := ⟨0x00#8, 0x0100#16, 0x0100#16, 0#32⟩

/-- No request is being computed in a block that presents a response. -/
def presentingAdd (waiting : List Request) : State := { State.reset with phase := .presenting addOne, waiting := waiting }

/-- A block that is computing ADD. -/
def computingAdd : State := { State.reset with phase := .computing addOne 0 }

theorem witness_RoundingIsNearestTiesAway :
    0 < 2 ∧ 2 * |((2 : Nat) : Int) * rha (-1) 2 - (-1)| = ((2 : Nat) : Int) := by decide

theorem witness_PatternsAreTheMultiplesOfOneOver256 :
    (-32768 : Int) ≤ -32768 ∧ (32767 : Int) ≤ 32767 ∧ qvalue 0x0100#16 = qvalue one := ⟨by decide, by decide, rfl⟩

theorem witness_EncodeOfDecodeKeepsEveryBitRead :
    decode ⟨0x0A#8, 1#16, 2#16, 0x1FF#32⟩ = .ok (.lerp8 1#16 2#16 0xFF#8) ∧
    decode ⟨0x0B#8, 1#16, 2#16, 0x1FFFF#32⟩ = .ok (.lerp16 1#16 2#16 0xFFFF#16) ∧
    decode ⟨0x0C#8, 1#16, 2#16, 0xFFFFFFFF#32⟩ = .ok (.lerp32 1#16 2#16 0xFFFFFFFF#32) := by decide

theorem witness_UnreadPortBitsAreIgnored :
    (0x01#8 ≤ 0x09#8 ∧ 0x09#8 ≤ 0x09#8) ∧
    (0x100#32).extractLsb' 0 8 = (0x000#32).extractLsb' 0 8 ∧
    (0x10000#32).extractLsb' 0 16 = (0x00000#32).extractLsb' 0 16 := by decide

theorem witness_IllegalRequestsFault :
    (0x10#8).extractLsb' 4 4 ≠ 0#4 ∧
    faultOf (step (asked true true ⟨0x10#8, 0#16, 0#16, 0#32⟩)) = some (.illegal .reservedBits) ∧
    faultOf (step (asked true true ⟨0x0F#8, 0#16, 0#16, 0#32⟩)) = some (.illegal .reservedOp) ∧
    faultOf (step (asked false true ⟨0x08#8, 0#16, 0#16, 0#32⟩)) = some (.illegal .satWithoutOvfCheck) := by decide

theorem witness_not_computing :
    (∀ q n, (asked true true addOne).phase ≠ .computing q n) ∧ (∀ q n, (presentingAdd [addOne]).phase ≠ .computing q n) :=
  ⟨fun _ _ h => Phase.noConfusion h, fun _ _ h => Phase.noConfusion h⟩

theorem witness_StepRunsTheDecodedInstruction :
    decode addOne = .ok (.add 0x0100#16 0x0200#16) ∧ (asked true true addOne).waiting = addOne :: [] ∧
    computingAdd.phase = .computing addOne 0 := by decide

theorem witness_FetchWordRunsNext : decodeTableWord 8 0x0C = some (.lerp32 0#16 0#16 0#32) := by decide

theorem witness_StepWithoutARequestIsIdle :
    State.reset.waiting = [] ∧ State.reset.phase = .idle ∧
    (presentingAdd []).waiting = [] ∧ (presentingAdd []).phase = .presenting addOne := by decide

theorem witness_StepAnswersTheNextRequest :
    answer Config.standard addOne = .ok 0x0300#16 ∧ answer Config.standard reserved = .error .reservedOp ∧
    (presentingAdd [addOne]).waiting = addOne :: [] ∧ (presentingAdd [reserved]).waiting = reserved :: [] := by decide

theorem witness_ResponseDependsOnRequestAndConfigurationOnly :
    (asked true true addOne).cfg = (presentingAdd [addOne, reserved]).cfg ∧
    (presentingAdd [addOne, reserved]).waiting = addOne :: [reserved] := by decide

theorem witness_OnlyTheResponseIsWritten : ∃ t, exec (.add 0x0100#16 0x0200#16) computingAdd = .next t := ⟨_, rfl⟩

theorem witness_OnlySaturatingOperationsFault :
    faultOf (exec (.sdiv 0#16 0#16) (asked false true addOne)) = some (.illegal .satWithoutOvfCheck) := by decide

theorem witness_NothingChangesTheConfiguration : ∃ t, step (asked true true addOne) = .next t := ⟨_, rfl⟩

/-- The last clause of ResetLeavesTheBlockIdle: a request waits while reset comes, on a busy block. -/
theorem witness_ResetLeavesTheBlockIdle :
    (presentingAdd [addOne]).waiting = addOne :: [] ∧
    (presentingAdd [addOne]).assertReset.accept.phase = .computing addOne 0 := by decide

theorem witness_AddSubExactOrSentinelOrWrapped :
    s16 0x7FFE#16 + s16 0x0001#16 = 32767 ∧ s16 0x7FFF#16 + s16 0x0001#16 = 32768 ∧
    s16 0x8001#16 + s16 0xFFFF#16 = -32768 ∧ s16 0x8000#16 + s16 0xFFFF#16 = -32769 ∧
    s16 0x0000#16 - s16 0x8001#16 = 32767 ∧ s16 0x0000#16 - s16 0x8000#16 = 32768 ∧
    s16 0xFFFF#16 - s16 0x7FFF#16 = -32768 ∧ s16 0xFFFE#16 - s16 0x7FFF#16 = -32769 := by decide

theorem witness_overflow_checking_either_way :
    (asked true true addOne).cfg.ovfCheck = true ∧ (asked false true addOne).cfg.ovfCheck = false := by decide

theorem witness_rounding_either_way :
    (asked true true addOne).cfg.rounding = true ∧ (asked true false addOne).cfg.rounding = false := by decide

/-- Products at the boundaries of 42_multiply.md R98 that two operands reach. -/
theorem witness_MulRangeCheckOnTheProduct :
    s16 13107#16 * s16 640#16 = 8388480 ∧ s16 0x8000#16 * s16 0x0100#16 = -8388608 ∧
    s16 0x8000#16 * s16 0xFF00#16 = 8388608 ∧ s16 0x7FFF#16 * s16 0xFEFF#16 ≤ -8388736 ∧
    mulResult Config.standard 0x0100#16 0x0100#16 ≠ 0x8000#16 := by decide

theorem witness_DivSentinelAndSdivClamp :
    (0x0080#16 : Word16) ≠ 0x0000#16 ∧ 256 * magnitude 0x3FFF#16 < 32768 * magnitude 0x0080#16 := by decide

theorem witness_RestoringDividerIsBounded :
    (0x0001#16 : Word16) ≠ 0x0000#16 ∧ (alignedFor 0x0080#16 0x0001#16).2 = 0x008000#24 ∧
    (alignedFor 0x0080#16 0x0001#16).2 < 0x010000#24 := by decide

theorem witness_ModByRule :
    (0x7FFF#16 : Word16) ≠ 0x8000#16 ∧ modResult 0x7FFF#16 0x8000#16 = 0x7FFF#16 ∧
    modResult 0x8000#16 0x8000#16 = 0x0000#16 ∧ (0x0001#16 : Word16) ≠ 0x0000#16 := by decide

theorem witness_LerpStaysBetweenItsEndPoints :
    (0xFF#8).toNat = 2 ^ 8 - 1 ∧ lerpResult 0x8000#16 0x7FFF#16 0xFF#8 = 0x7EFF#16 := by decide

theorem witness_ResultsApproximateTheRealValues :
    mulResult Config.standard 0x0001#16 0x0080#16 ≠ 0x8000#16 ∧ divResult Config.standard 0x0100#16 0x0300#16 ≠ 0x8000#16 ∧
    addResult Config.standard 0x0100#16 0x0200#16 ≠ 0x8000#16 ∧ subResult Config.standard 0x0100#16 0x0200#16 ≠ 0x8000#16 := by
  decide

theorem witness_BusyBlockAcceptsNothing :
    computingAdd.phase.outstanding = some addOne ∧ computingAdd.phase = .computing addOne 0 ∧
    (presentingAdd []).phase = .presenting addOne := by decide

theorem witness_StepIsExactForTheCycles :
    (∃ t, step (asked true true addOne) = .next t) ∧ (∃ f, step (asked true true reserved) = .fault f) ∧
    0 < Config.latency addOne.cmd := ⟨⟨_, rfl⟩, ⟨_, rfl⟩, latency_pos _⟩

/-- A block in the last cycle of a request with a reserved code, with ADD waiting. -/
def lastCycleOfReserved : State :=
  { asked true true addOne with phase := .computing reserved (Config.extraCycles reserved.cmd) }

theorem witness_IllegalResponseLeavesTheNextRequestAlone :
    Config.latency reserved.cmd ≤ Config.extraCycles reserved.cmd + 1 ∧
    legalRequest lastCycleOfReserved.cfg reserved = false ∧ lastCycleOfReserved.waiting = addOne :: [] ∧
    answer lastCycleOfReserved.cfg addOne = .ok 0x0300#16 := ⟨Nat.le_refl _, by decide, rfl, by decide⟩

theorem witness_EventsKeepTheTraceFaithful :
    ((Trace.start Config.standard).event (.present addOne)).faithful := ⟨rfl, rfl, rfl⟩

theorem witness_StepKeepsTheHandshakeCoherent :
    (asked true true addOne).coherent = true ∧ ∃ t, step (asked true true addOne) = .next t := ⟨rfl, _, rfl⟩

theorem witness_RunAnswersTheQueueInOrder :
    legalRequest Config.standard addOne = true ∧ answer Config.standard addOne = .ok 0x0300#16 ∧
    (presentingAdd [addOne, addOne, reserved]).waiting = [addOne] ++ addOne :: [reserved] := by decide

theorem witness_LegalRequestsNeverFault : (presentingAdd [addOne]).onlyLegal = true := by decide

end Sys2Proof.Tests
end

/-! PROOFS. Words as integers: what the datapaths' bit operations do to the values their registers stand for. -/

namespace Sys2Proof.Machine

/-! Narrowing to 16 bits. -/

/-- The low 16 bits of a register, read as an unsigned number. -/
theorem setWidth16_eq_u16_toNat {w : Nat} (x : BitVec w) : x.setWidth 16 = u16 x.toNat := by
  rw [u16, BitVec.ofInt_natCast, BitVec.ofNat_toNat]

/-- The low 16 bits of a register of at least 16 bits, read as a signed number. -/
theorem setWidth16_eq_u16_toInt {w : Nat} (hw : 16 ≤ w) (x : BitVec w) : x.setWidth 16 = u16 x.toInt := by
  apply BitVec.eq_of_toInt_eq
  rw [u16, BitVec.toInt_setWidth, BitVec.toInt_ofInt, BitVec.toInt_eq_toNat_bmod x,
    Int.bmod_bmod_of_dvd (Nat.pow_dvd_pow 2 hw)]

theorem u16_neg (n : Int) : u16 (-n) = -u16 n := BitVec.ofInt_neg

/-- A magnitude with a sign: how MUL and DIV restore the sign of their quotient (42_multiply.md R95, 43_divide.md
R111). -/
def signed (sg : Bool) (m : Nat) : Int := if sg then -(m : Int) else m

@[simp] theorem signed_true (m : Nat) : signed true m = -(m : Int) := rfl
@[simp] theorem signed_false (m : Nat) : signed false m = m := rfl

/-- Restoring the sign in a register of at least 16 bits, then narrowing. -/
theorem setWidth16_restoreSign {w : Nat} (hw : 16 ≤ w) (sg : Bool) (x : BitVec w) :
    (if sg then (-x).setWidth 16 else x.setWidth 16) = u16 (signed sg x.toNat) := by
  cases sg with
  | false => exact setWidth16_eq_u16_toNat x
  | true => simp [BitVec.setWidth_neg_of_le hw, setWidth16_eq_u16_toNat, u16_neg]

/-! The range check. -/

theorem u16_32768 : u16 32768 = sentinel := by decide

theorem u16_neg_32768 : u16 (-32768) = sentinel := by decide

/-- Up to 32768, the one value out of range that wraps to the sentinel's pattern, the range check is not seen. -/
theorem narrow_of_le (cfg : Config) {q : Int} (hl : -32768 ≤ q) (hu : q ≤ 32768) : narrow cfg q = u16 q := by
  rcases eq_or_lt_of_le hu with rfl | hlt
  · simp [narrow, u16_32768]
  · have : outOfRange q = false := by rw [← Bool.not_eq_true, outOfRange_iff]; omega
    simp [narrow, this]

/-- From magnitude 32768 on, checking gives the sentinel's pattern. -/
theorem narrow_of_abs_ge {cfg : Config} (hc : cfg.ovfCheck = true) {q : Int} (hq : 32768 ≤ |q|) :
    narrow cfg q = sentinel := by
  by_cases ho : outOfRange q = true
  · simp [narrow, hc, ho]
  · have : q = -32768 := by rw [outOfRange_iff] at ho; rw [le_abs] at hq; omega
    rw [this, narrow_of_le cfg (by omega) (by omega), u16_neg_32768]

/-- Without checking there is no sentinel (42_multiply.md R92, 43_divide.md R113). -/
theorem narrow_of_not_checking {cfg : Config} (hc : cfg.ovfCheck = false) (q : Int) : narrow cfg q = u16 q := by
  simp [narrow, hc]

theorem abs_signed (sg : Bool) (m : Nat) : |signed sg m| = m := by cases sg <;> simp

/-- The range check of the sign-and-magnitude datapaths: the magnitude needs bit 15 or more. -/
theorem narrow_signed (cfg : Config) (sg : Bool) (m : Nat) :
    narrow cfg (signed sg m) =
      if cfg.ovfCheck = true ∧ 32768 ≤ m then sentinel else u16 (signed sg m) := by
  have habs := abs_signed sg m
  split
  · next h => exact narrow_of_abs_ge h.1 (by omega)
  · next h =>
    cases hc : cfg.ovfCheck with
    | false => exact narrow_of_not_checking hc _
    | true =>
      have hm : |signed sg m| ≤ 32767 := by have := not_and.mp h hc; omega
      obtain ⟨hl, hu⟩ := abs_le.mp hm
      exact narrow_of_le cfg (by omega) (by omega)

/-! Signs and magnitudes. -/

theorem s16_eq_signed (v : Word16) : s16 v = signed (neg v) (magnitude v) := by
  have hneg := neg_iff v
  unfold magnitude
  cases h : neg v with
  | true => have := hneg.mp h; rw [signed_true]; omega
  | false => rw [h] at hneg; simp at hneg; rw [signed_false]; omega

/-- `abs_u16(v)` holds the magnitude, 32768 included (00_scope.md section 5). -/
@[simp] theorem absU16_toNat (v : Word16) : (absU16 v).toNat = magnitude v := by
  have hv := v.isLt
  have hs := s16_eq v
  have hneg := neg_iff v
  unfold absU16 magnitude
  split
  · next h =>
    have hlt := hneg.mp h
    have hl := s16_lower v
    rw [u16, BitVec.toNat_ofInt]
    omega
  · next h => rw [if_neg h] at hs; omega

theorem magnitude_pos {v : Word16} (h : v ≠ 0x0000#16) : 0 < magnitude v :=
  Nat.pos_of_ne_zero fun h0 => h ((magnitude_zero_iff v).mp h0)

theorem signed_mul_signed (s t : Bool) (m n : Nat) : signed s m * signed t n = signed (s ^^ t) (m * n) := by
  cases s <;> cases t <;> simp

/-- The exact product by sign and magnitude. -/
theorem product_eq_signed (a b : Word16) :
    product a b = signed (signsDiffer a b) (magnitude a * magnitude b) := by
  rw [product, s16_eq_signed a, s16_eq_signed b, signed_mul_signed, signsDiffer]

end Sys2Proof.Machine

/-! PROOFS. The interpolator (45_interpolate.md R140, R147): an accumulator of n + 16 bits holds the blend exactly. -/

namespace Sys2Proof.Machine

section
variable {n : Nat} (a b : Word16) (f : BitVec n)

theorem weight_nonneg : 0 ≤ weight f := Int.natCast_nonneg _

theorem weight_le : weight f ≤ 2 ^ n := by
  have := f.isLt
  unfold weight
  exact_mod_cast this.le

/-- The blend is a mean of two values of 16 bits, scaled by 2^n. -/
theorem lerpAcc_lower : -(32768 * 2 ^ n) ≤ lerpAcc a b f := by
  have hw := weight_nonneg f
  have hw' := sub_nonneg.mpr (weight_le f)
  unfold lerpAcc
  linarith [mul_le_mul_of_nonneg_right (s16_lower a) hw', mul_le_mul_of_nonneg_right (s16_lower b) hw]

theorem lerpAcc_upper : lerpAcc a b f ≤ 32767 * 2 ^ n := by
  have hw := weight_nonneg f
  have hw' := sub_nonneg.mpr (weight_le f)
  unfold lerpAcc
  linarith [mul_le_mul_of_nonneg_right (s16_upper a) hw', mul_le_mul_of_nonneg_right (s16_upper b) hw]

end

/-- Sign extension to a width of at least 16 bits is the value at that width. -/
theorem signExtend_eq_ofInt {w : Nat} (hw : 16 ≤ w) (v : Word16) : v.signExtend w = BitVec.ofInt w (s16 v) := by
  rw [← BitVec.ofInt_toInt (x := v.signExtend w), BitVec.toInt_signExtend_of_le hw, s16]

/-- The accumulator's contents before the shift: the blend modulo 2^width. -/
theorem accumulator_eq_ofInt {n width : Nat} (hw : 16 ≤ width) (a b : Word16) (f : BitVec n) :
    a.signExtend width * (1#width <<< n - f.setWidth width) + b.signExtend width * f.setWidth width =
      BitVec.ofInt width (lerpAcc a b f) := by
  have hwhole : 1#width <<< n = BitVec.ofInt width (2 ^ n) := by
    have hcast : (2 ^ n : Int) = ((2 ^ n : Nat) : Int) := by norm_cast
    rw [hcast, BitVec.ofInt_natCast, ← BitVec.twoPow_eq]
    exact BitVec.eq_of_toNat_eq (by rw [BitVec.toNat_twoPow, BitVec.toNat_ofNat])
  have ht : f.setWidth width = BitVec.ofInt width (weight f) := by
    rw [weight, BitVec.ofInt_natCast, BitVec.ofNat_toNat]
  rw [hwhole, ht, signExtend_eq_ofInt hw, signExtend_eq_ofInt hw, lerpAcc, BitVec.ofInt_add, BitVec.ofInt_mul,
    BitVec.ofInt_mul, Int.sub_eq_add_neg, BitVec.ofInt_add, BitVec.ofInt_neg, BitVec.sub_eq_add_neg]

/-- 45_interpolate.md R147: any accumulator of at least n + 16 bits gives the rule's result. -/
theorem lerpDatapath_eq {n width : Nat} (hw : n + 16 ≤ width) (a b : Word16) (f : BitVec n) :
    lerpDatapath width a b f = lerpResult a b f := by
  have hpow : (32768 : Int) * 2 ^ n ≤ 2 ^ (width - 1) := by
    have hn : (2 : Int) ^ (15 + n) ≤ 2 ^ (width - 1) := pow_le_pow_right₀ (by norm_num) (by omega)
    rwa [pow_add] at hn
  have hfits : (BitVec.ofInt width (lerpAcc a b f)).toInt = lerpAcc a b f := by
    have hl := lerpAcc_lower a b f
    have hu := lerpAcc_upper a b f
    have hp : (0 : Int) < 2 ^ n := by positivity
    exact BitVec.toInt_ofInt_eq_self (by omega) (by omega) (by omega)
  rw [lerpDatapath, lerpResult, sra, accumulator_eq_ofInt (by omega), setWidth16_eq_u16_toInt (by omega),
    BitVec.toInt_sshiftRight, hfits, Int.shiftRight_eq_div_pow]
  norm_num

end Sys2Proof.Machine

/-! PROOFS. The modulo units (44_modulo.md R130 to R133). -/

namespace Sys2Proof.Machine

/-- The rule is the truncating remainder. -/
theorem modResult_of_ne {a b : Word16} (hb : b ≠ 0x0000#16) : modResult a b = u16 ((s16 a).tmod (s16 b)) := by
  rw [modResult, if_neg hb, Int.tmod_def]

theorem modNative_eq (a b : Word16) : modNative a b = modResult a b := by
  by_cases hb : b = 0x0000#16
  · rw [modNative, modResult, if_pos hb, if_pos hb]
  · rw [modResult_of_ne hb, modNative, if_neg hb, s16, s16, ← BitVec.toInt_srem]
    exact (u16_s16 _).symm

/-- Subtracting as often as it goes leaves the remainder, where the fuel is no less than the start value. -/
theorem subtractLoop_toNat {m : Word16} (hm : 0 < m.toNat) (fuel : Nat) (r : Word16) (h : r.toNat ≤ fuel) :
    (subtractLoop m fuel r).toNat = r.toNat % m.toNat := by
  induction fuel generalizing r with
  | zero => rw [subtractLoop, Nat.mod_eq_of_lt (by omega)]
  | succ fuel ih =>
    rw [subtractLoop]
    split
    · next hle =>
      have hsub : (r - m).toNat = r.toNat - m.toNat := BitVec.toNat_sub_of_le hle
      rw [ih (r - m) (by omega), hsub, ← Nat.mod_eq_sub_mod (BitVec.le_def.mp hle)]
    · next hlt => rw [Nat.mod_eq_of_lt (by rw [BitVec.le_def] at hlt; omega)]

/-- The truncating remainder by sign and magnitude: it has the sign of the dividend. -/
theorem signed_tmod_signed (s t : Bool) (m n : Nat) : (signed s m).tmod (signed t n) = signed s (m % n) := by
  cases s <;> cases t <;> simp [(Int.ofNat_tmod m n).symm]

theorem modLoop_eq (a b : Word16) : modLoop a b = modResult a b := by
  by_cases hb : b = 0x0000#16
  · rw [modLoop, modResult, if_pos hb, if_pos hb]
  · have hloop : (subtractLoop (absU16 b) 32768 (absU16 a)).toNat = magnitude a % magnitude b := by
      rw [subtractLoop_toNat (by simpa using magnitude_pos hb) _ _ (by simpa using magnitude_le a), absU16_toNat,
        absU16_toNat]
    have hsign := setWidth16_restoreSign le_rfl (neg a) (subtractLoop (absU16 b) 32768 (absU16 a))
    rw [modResult_of_ne hb, s16_eq_signed a, s16_eq_signed b, signed_tmod_signed, ← hloop, ← hsign, modLoop, if_neg hb]
    simp only [BitVec.setWidth_eq]

/-- 44_modulo.md R133: either unit gives the rule's remainder. -/
theorem modDatapath_eq (cfg : Config) (a b : Word16) : modDatapath cfg a b = modResult a b := by
  unfold modDatapath
  cases cfg.alg with
  | wide => exact modNative_eq a b
  | limb => exact modLoop_eq a b

end Sys2Proof.Machine

/-! PROOFS. The rounded product by sign and magnitude, and the two multipliers (42_multiply.md R90 to R96). -/

namespace Sys2Proof.Machine

/-! The rule. -/

/-- Rounding ties away from zero rounds the magnitude half up. -/
theorem rha_signed (sg : Bool) (m : Nat) {d : Nat} (hd : 0 < d) :
    rha (signed sg m) d = signed sg ((2 * m + d) / (2 * d)) := by
  rcases Nat.eq_zero_or_pos m with rfl | hm
  · have hz : (2 * 0 + d) / (2 * d) = 0 := Nat.div_eq_of_lt (by omega)
    rw [hz]
    cases sg <;> simp [rha]
  · cases sg <;> simp [rha, Int.sign_eq_one_of_pos (Int.natCast_pos.mpr hm)]

/-- The limb multiplier's rounding addend (42_multiply.md R95). -/
def limbAddend (cfg : Config) (sg : Bool) : Nat := if cfg.rounding then 128 else if sg then 255 else 0

/-- `|Q|` is the magnitude of the product with the limb multiplier's addend, shifted right by 8. -/
theorem mulQuotient_eq_signed (cfg : Config) (a b : Word16) :
    mulQuotient cfg a b = signed (signsDiffer a b)
      ((magnitude a * magnitude b + limbAddend cfg (signsDiffer a b)) / 256) := by
  rw [mulQuotient, product_eq_signed, limbAddend]
  generalize signsDiffer a b = sg
  generalize magnitude a * magnitude b = m
  split
  · rw [rha_signed sg m (by norm_num)]
    congr 1
    omega
  · cases sg with
    | false => simp [sra]
    | true => simp [sra]; omega

/-- The wide multiplier's rounding addend, for the product `p` (42_multiply.md R94). -/
def wideAddend (cfg : Config) (p : Int) : Int := if cfg.rounding then (if p < 0 then 127 else 128) else 0

/-- `Q` is the product with the wide multiplier's addend, shifted right by 8. -/
theorem mulQuotient_eq_sra (cfg : Config) (a b : Word16) :
    mulQuotient cfg a b = sra (product a b + wideAddend cfg (product a b)) 8 := by
  rw [mulQuotient, wideAddend]
  split
  · rw [product_eq_signed, rha_signed _ _ (by norm_num)]
    generalize magnitude a * magnitude b = m
    cases signsDiffer a b <;> (simp [sra]; omega)
  · rw [add_zero]

/-! The wide-intermediate multiplier. -/

theorem abs_product_le (a b : Word16) : |product a b| ≤ 1073741824 := by
  rw [product_eq_signed, abs_signed]
  exact_mod_cast Nat.mul_le_mul (magnitude_le a) (magnitude_le b)

/-- A 32-bit register holds every value the datapath puts into it. -/
theorem toInt_ofInt32 {n : Int} (h : |n| ≤ 1073742000) : (BitVec.ofInt 32 n).toInt = n := by
  obtain ⟨hl, hu⟩ := abs_le.mp h
  exact BitVec.toInt_ofInt_eq_self (by norm_num) (by norm_num; omega) (by norm_num; omega)

/-- The 32-bit product is exact. -/
theorem mul_signExtend32 (a b : Word16) :
    a.signExtend 32 * b.signExtend 32 = BitVec.ofInt 32 (product a b) := by
  rw [signExtend_eq_ofInt (by norm_num), signExtend_eq_ofInt (by norm_num), ← BitVec.ofInt_mul, product]

/-- Bits 31 to 23 are a sign extension exactly for the values of 24 bits. -/
theorem highBits_notSignExtension_iff (p : BitVec 32) :
    ((p.extractLsb' 23 9 != 0b000000000#9 && p.extractLsb' 23 9 != 0b111111111#9) = true) ↔
      p.toInt < -8388608 ∨ 8388608 ≤ p.toInt := by
  have hp := p.isLt
  have hhigh : (p.extractLsb' 23 9).toNat = p.toNat / 8388608 := by
    rw [BitVec.extractLsb'_toNat, Nat.shiftRight_eq_div_pow]
    omega
  rw [BitVec.toInt_eq_toNat_cond, Bool.and_eq_true, bne_iff_ne, bne_iff_ne, ← BitVec.toNat_ne_iff_ne,
    ← BitVec.toNat_ne_iff_ne, hhigh]
  simp
  omega

/-- The rounding addend is read off the product's sign bit. -/
theorem addend_eq_ofInt (cfg : Config) {p : Int} (hp : |p| ≤ 1073741824) :
    (if cfg.rounding then BitVec.ofInt 32 p + (if (BitVec.ofInt 32 p).msb then 127#32 else 128#32)
      else BitVec.ofInt 32 p) = BitVec.ofInt 32 (p + wideAddend cfg p) := by
  have hmsb : (BitVec.ofInt 32 p).msb = decide (p < 0) := by
    rw [BitVec.msb_eq_toInt, toInt_ofInt32 (by omega)]
  rw [hmsb, BitVec.ofInt_add, wideAddend]
  by_cases hr : cfg.rounding = true
  · by_cases hneg : p < 0 <;> simp [hr, hneg]
  · simp [hr]

/-- Narrowing the shifted, rounded product: the rule's quotient modulo 2^16. -/
theorem setWidth16_roundedProduct (cfg : Config) (a b : Word16) :
    ((BitVec.ofInt 32 (product a b + wideAddend cfg (product a b))).sshiftRight 8).setWidth 16 =
      u16 (mulQuotient cfg a b) := by
  have hp := abs_product_le a b
  have hk : |wideAddend cfg (product a b)| ≤ 128 := by unfold wideAddend; split_ifs <;> norm_num
  have hsum := abs_add_le (product a b) (wideAddend cfg (product a b))
  rw [setWidth16_eq_u16_toInt (by norm_num), BitVec.toInt_sshiftRight, toInt_ofInt32 (by omega), mulQuotient_eq_sra,
    sra, Int.shiftRight_eq_div_pow]
  norm_num

/-- Below the range of 24 bits the unrounded product gives a `Q` of −32768 or less (42_multiply.md R94). -/
theorem mulQuotient_of_product_lt (cfg : Config) {a b : Word16} (h : product a b < -8388608) :
    mulQuotient cfg a b ≤ -32768 := by
  rw [mulQuotient_eq_sra, sra, wideAddend]; split_ifs <;> omega

/-- Above it, a `Q` out of range. -/
theorem mulQuotient_of_product_ge (cfg : Config) {a b : Word16} (h : 8388608 ≤ product a b) :
    32768 ≤ mulQuotient cfg a b := by
  rw [mulQuotient_eq_sra, sra, wideAddend]; split_ifs <;> omega

/-- Within it, rounding may still carry `Q` to 32768, which wraps to the sentinel's pattern. -/
theorem mulQuotient_of_product_mem (cfg : Config) {a b : Word16} (hl : -8388608 ≤ product a b)
    (hu : product a b < 8388608) : -32768 ≤ mulQuotient cfg a b ∧ mulQuotient cfg a b ≤ 32768 := by
  rw [mulQuotient_eq_sra, sra, wideAddend]; split_ifs <;> omega

theorem mulWide_eq (cfg : Config) (a b : Word16) : mulWide cfg a b = mulResult cfg a b := by
  have hp := abs_product_le a b
  have hhigh := highBits_notSignExtension_iff (BitVec.ofInt 32 (product a b))
  rw [toInt_ofInt32 (by omega)] at hhigh
  rw [mulWide, mulResult, mul_signExtend32, addend_eq_ofInt cfg hp, setWidth16_roundedProduct, Bool.and_assoc]
  by_cases hc : cfg.ovfCheck = true
  · rw [hc, Bool.true_and]
    split
    · next h =>
      have hq : 32768 ≤ |mulQuotient cfg a b| := le_abs.mpr <| by
        rcases hhigh.mp h with hl | hu
        · exact .inr (le_neg_of_le_neg (mulQuotient_of_product_lt cfg hl))
        · exact .inl (mulQuotient_of_product_ge cfg hu)
      exact (narrow_of_abs_ge hc hq).symm
    · next h =>
      have hin := (not_congr hhigh).mp h
      obtain ⟨hl, hu⟩ := mulQuotient_of_product_mem cfg (a := a) (b := b) (by omega) (by omega)
      exact (narrow_of_le cfg hl hu).symm
  · rw [narrow_of_not_checking (by simpa using hc)]
    simp [hc]

/-! The limb-decomposed multiplier. -/

/-- Skipping a zero limb changes nothing, and 16 bits hold the product of two bytes. -/
theorem partialProduct_toNat (x y : Byte) : (partialProduct x y).toNat = x.toNat * y.toNat := by
  have hlt : x.toNat * y.toNat < 65536 := Nat.mul_lt_mul'' x.isLt y.isLt
  unfold partialProduct
  split
  · simp [Nat.mod_eq_of_lt hlt]
  · next h =>
    have hz : x.toNat = 0 ∨ y.toNat = 0 := by
      simpa [← BitVec.toNat_eq, BitVec.toNat_eq, imp_iff_not_or] using h
    rcases hz with hx | hy
    · simp [hx]
    · simp [hy]

theorem toNat_eq_limbs (v : Word16) :
    v.toNat = 256 * (v.extractLsb' 8 8).toNat + (v.extractLsb' 0 8).toNat := by
  have := v.isLt
  simp [Nat.shiftRight_eq_div_pow]
  omega

/-- The four partial products add up to the product of the magnitudes. -/
theorem limbSum_toNat (ma mb : Word16) (h : ma.toNat * mb.toNat ≤ 1073741824) :
    (limbSum ma mb).toNat = ma.toNat * mb.toNat := by
  have hexpand : ma.toNat * mb.toNat =
      65536 * ((ma.extractLsb' 8 8).toNat * (mb.extractLsb' 8 8).toNat) +
        256 * ((ma.extractLsb' 0 8).toNat * (mb.extractLsb' 8 8).toNat +
          (ma.extractLsb' 8 8).toNat * (mb.extractLsb' 0 8).toNat) +
        (ma.extractLsb' 0 8).toNat * (mb.extractLsb' 0 8).toNat := by
    rw [toNat_eq_limbs ma, toNat_eq_limbs mb]; ring
  simp only [← partialProduct_toNat] at hexpand
  rw [limbSum]
  simp only [BitVec.toNat_add, BitVec.toNat_shiftLeft, BitVec.toNat_setWidth, Nat.shiftLeft_eq]
  omega

/-- The limb multiplier's shifted sum is `|Q|`. -/
theorem limbMagnitude_toNat (cfg : Config) (a b : Word16) (sg : Bool) :
    ((limbSum (absU16 a) (absU16 b) +
      (if cfg.rounding then 128#32 else if sg then 255#32 else 0#32)) >>> 8).toNat =
        (magnitude a * magnitude b + limbAddend cfg sg) / 256 := by
  have hle : magnitude a * magnitude b ≤ 1073741824 := Nat.mul_le_mul (magnitude_le a) (magnitude_le b)
  have hk : (if cfg.rounding then 128#32 else if sg then 255#32 else 0#32).toNat = limbAddend cfg sg := by
    unfold limbAddend
    split_ifs <;> rfl
  have hk' : limbAddend cfg sg ≤ 255 := by unfold limbAddend; split_ifs <;> omega
  rw [BitVec.toNat_ushiftRight, BitVec.toNat_add, hk, limbSum_toNat _ _ (by simpa using hle), absU16_toNat,
    absU16_toNat, Nat.shiftRight_eq_div_pow, Nat.mod_eq_of_lt (by omega)]

theorem mulLimb_eq (cfg : Config) (a b : Word16) : mulLimb cfg a b = mulResult cfg a b := by
  have hr := limbMagnitude_toNat cfg a b (signsDiffer a b)
  rw [mulLimb, mulResult, mulQuotient_eq_signed, narrow_signed, ← hr, ← setWidth16_restoreSign (by norm_num)]
  refine if_congr ?_ rfl rfl
  rw [Bool.and_eq_true, decide_eq_true_eq, BitVec.lt_def]
  exact Iff.rfl

/-- 42_multiply.md R96: either multiplier gives the rule's product. -/
theorem mulDatapath_eq (cfg : Config) (a b : Word16) : mulDatapath cfg a b = mulResult cfg a b := by
  unfold mulDatapath
  cases cfg.alg with
  | wide => exact mulWide_eq cfg a b
  | limb => exact mulLimb_eq cfg a b

end Sys2Proof.Machine

/-! PROOFS. The quotient's bounds and the wide-intermediate divider (43_divide.md R111, R115). -/

namespace Sys2Proof.Machine

/-! The rule. -/

theorem divQuotient_eq_signed (cfg : Config) (a b : Word16) :
    divQuotient cfg a b = signed (signsDiffer a b) (divMagnitude cfg a b) := rfl

theorem divResult_zero (cfg : Config) (a : Word16) : divResult cfg a 0x0000#16 = sentinel := if_pos rfl

theorem divResult_of_ne (cfg : Config) (a : Word16) {b : Word16} (hb : b ≠ 0x0000#16) :
    divResult cfg a b = narrow cfg (divQuotient cfg a b) := if_neg hb

/-- Rounding the magnitude half up is truncating after adding half the divisor (43_divide.md R115). -/
theorem divMagnitude_eq_div (cfg : Config) (a b : Word16) :
    divMagnitude cfg a b =
      (256 * magnitude a + if cfg.rounding then magnitude b / 2 else 0) / magnitude b := by
  rw [divMagnitude]
  split
  · rw [← Nat.div_div_eq_div_mul]
    congr 1
    omega
  · rw [add_zero]

/-- `|Q|` is at most 8388608 (43_divide.md R111). -/
theorem divMagnitude_le (cfg : Config) (a : Word16) {b : Word16} (hb : b ≠ 0x0000#16) :
    divMagnitude cfg a b ≤ 8388608 := by
  have ha := magnitude_le a
  have hD := magnitude_pos hb
  rw [divMagnitude_eq_div]
  refine Nat.le_of_lt_succ ((Nat.div_lt_iff_lt_mul hD).mpr ?_)
  split <;> omega

/-! The wide-intermediate divider. -/

theorem toNat_abs_eq_natAbs {w : Nat} (x : BitVec w) : x.abs.toNat = x.toInt.natAbs := by
  have := x.isLt
  rw [BitVec.toNat_abs, BitVec.toInt_eq_msb_cond]
  split <;> omega

theorem abs_scaledDividend_toNat (a : Word16) : (a.signExtend 32 <<< 8).abs.toNat = 256 * magnitude a := by
  have hl := s16_lower a
  have hu := s16_upper a
  have hscaled : a.signExtend 32 <<< 8 = BitVec.ofInt 32 (s16 a * 256) := by
    rw [BitVec.shiftLeft_eq_mul_twoPow, signExtend_eq_ofInt (by norm_num), BitVec.ofInt_mul]
    rfl
  rw [toNat_abs_eq_natAbs, hscaled, toInt_ofInt32 (abs_le.mpr ⟨by omega, by omega⟩), magnitude]
  omega

theorem abs_signExtend_toNat (b : Word16) : (b.signExtend 32).abs.toNat = magnitude b := by
  rw [toNat_abs_eq_natAbs, BitVec.toInt_signExtend_of_le (by norm_num), magnitude, s16]

theorem wideQuotient_toNat (cfg : Config) (a b : Word16) :
    (((a.signExtend 32 <<< 8).abs + (if cfg.rounding then (b.signExtend 32).abs >>> 1 else 0#32)) /
      (b.signExtend 32).abs).toNat = divMagnitude cfg a b := by
  have ha := magnitude_le a
  have hb := magnitude_le b
  have hhalf : (if cfg.rounding then (b.signExtend 32).abs >>> 1 else 0#32).toNat =
      if cfg.rounding then magnitude b / 2 else 0 := by
    split
    · rw [BitVec.toNat_ushiftRight, abs_signExtend_toNat, Nat.shiftRight_eq_div_pow, pow_one]
    · rfl
  rw [BitVec.toNat_udiv, BitVec.toNat_add, abs_scaledDividend_toNat, abs_signExtend_toNat, hhalf,
    divMagnitude_eq_div, Nat.mod_eq_of_lt (by split <;> omega)]

/-- Restoring the sign in a register whose magnitude leaves bit 31 free. -/
theorem toInt_restoreSign32 (sg : Bool) {x : BitVec 32} (hx : x.toNat < 2147483648) :
    (if sg then -x else x).toInt = signed sg x.toNat := by
  cases sg with
  | false => simpa using BitVec.toInt_eq_toNat_of_lt (x := x) (by omega)
  | true =>
    have hpos : x.toInt = x.toNat := BitVec.toInt_eq_toNat_of_lt (by omega)
    have hneg : (-x).toInt = -x.toInt := by
      rw [BitVec.toInt_neg, hpos]
      exact Int.bmod_eq_of_le (by norm_num; omega) (by norm_num; omega)
    rw [if_pos rfl, hneg, hpos, signed_true]

theorem divWide_eq (cfg : Config) (a b : Word16) : divWide cfg a b = divResult cfg a b := by
  by_cases hb : b = 0x0000#16
  · rw [divWide, if_pos hb, hb, divResult_zero]
  · have hle := divMagnitude_le cfg a hb
    have hq := wideQuotient_toNat cfg a b
    have hsigned := toInt_restoreSign32 (signsDiffer a b) (lt_of_eq_of_lt hq (by omega))
    rw [hq, ← divQuotient_eq_signed] at hsigned
    rw [divWide, if_neg hb, divResult_of_ne cfg a hb, narrow]
    dsimp only
    rw [setWidth16_eq_u16_toInt (by norm_num), hsigned]

end Sys2Proof.Machine

/-! PROOFS. The restoring divider (43_divide.md R116 to R118). -/

namespace Sys2Proof.Machine

/-! Alignment. -/

/-- Working divisor and weight after `k` alignment shifts, for remainder `r`, from a divisor `d` and a weight `w`; `k` is
the least number of shifts that brings the divisor up to the remainder. -/
structure AlignedBy (r d w k : Nat) (db : Word16 × BitVec 24) : Prop where
  divisor : db.1.toNat = d * 2 ^ k
  weight : db.2.toNat = w * 2 ^ k
  reaches : r ≤ d * 2 ^ k
  least : k = 0 ∨ d * 2 ^ k < 2 * r

/-- With enough fuel the loop ends aligned; no shift loses a bit, because the remainder is at most 32768. -/
theorem alignLoop_aligned {r : Word16} (hr : r.toNat ≤ 32768) (fuel : Nat) (d : Word16) (w : BitVec 24)
    (hd : r.toNat ≤ d.toNat * 2 ^ fuel) (hw : w.toNat * 2 ^ fuel < 2 ^ 24) :
    ∃ k ≤ fuel, AlignedBy r.toNat d.toNat w.toNat k (alignLoop r fuel (d, w)) := by
  induction fuel generalizing d w with
  | zero => exact ⟨0, le_rfl, by simp [alignLoop], by simp [alignLoop], by simpa using hd, .inl rfl⟩
  | succ fuel ih =>
    rw [alignLoop]
    split
    · next hlt =>
      have hlt' : d.toNat < r.toNat := hlt
      have hpos : 0 < 2 ^ fuel := Nat.two_pow_pos fuel
      rw [pow_succ] at hd hw
      have hd2 : (d <<< 1).toNat = 2 * d.toNat := by
        rw [BitVec.toNat_shiftLeft, Nat.shiftLeft_eq]; omega
      have hw2 : (w <<< 1).toNat = 2 * w.toNat := by
        have : w.toNat * 2 ≤ w.toNat * (2 ^ fuel * 2) := Nat.mul_le_mul_left _ (by omega)
        rw [BitVec.toNat_shiftLeft, Nat.shiftLeft_eq]; omega
      obtain ⟨k, hk, hal⟩ := ih (d <<< 1) (w <<< 1) (by rw [hd2]; linarith) (by rw [hw2]; linarith)
      rw [hd2, hw2] at hal
      rw [alignStep, if_pos hlt]
      refine ⟨k + 1, by omega, ?_, ?_, ?_, .inr ?_⟩
      · rw [hal.divisor, pow_succ]; ring
      · rw [hal.weight, pow_succ]; ring
      · rw [pow_succ]; linarith [hal.reaches]
      · rcases hal.least with rfl | hleast
        · simpa [mul_comm] using hlt'
        · rw [pow_succ]; linarith
    · next hge =>
      have hge' : r.toNat ≤ d.toNat := Nat.le_of_not_lt hge
      exact ⟨0, by omega, by simp, by simp, by simpa using hge', .inl rfl⟩

/-- 43_divide.md R118: alignment ends within 15 shifts. -/
theorem alignedFor_aligned (a : Word16) {b : Word16} (hb : b ≠ 0x0000#16) :
    ∃ k ≤ 15, AlignedBy (magnitude a) (magnitude b) 256 k (alignedFor a b) := by
  have ha := magnitude_le a
  have hD := magnitude_pos hb
  have := alignLoop_aligned (r := absU16 a) (by simpa using ha) 15 (absU16 b) 0x000100#24
    (by rw [absU16_toNat, absU16_toNat]; omega) (by decide)
  simpa [alignedFor] using this

/-- A weight beyond 16 bits means an overflowing quotient (43_divide.md R117). -/
theorem divMagnitude_of_overflowingWeight (cfg : Config) {a b : Word16} (hb : b ≠ 0x0000#16)
    (h : 0x010000#24 ≤ (alignedFor a b).2) : 32768 ≤ divMagnitude cfg a b := by
  obtain ⟨k, -, hal⟩ := alignedFor_aligned a hb
  have hw : 65536 ≤ 256 * 2 ^ k := by rw [← hal.weight]; exact h
  have hleast : magnitude b * 2 ^ k < 2 * magnitude a := by
    rcases hal.least with rfl | hleast
    · omega
    · exact hleast
  have hscaled : magnitude b * 256 ≤ magnitude b * 2 ^ k := Nat.mul_le_mul_left _ (by omega)
  rw [divMagnitude_eq_div, Nat.le_div_iff_mul_le (magnitude_pos hb)]
  omega

/-! The registers while the divider subtracts. -/

/-- One trial subtraction, at a weight whose multiples the quotient's bits so far are: it keeps
`q * d + r * bit`, and the remainder comes below the divisor. -/
theorem trialSubtract_keeps {d : Word16} {s : DivRegs} {j : Nat} (hbit : s.bit.toNat = 2 ^ j)
    (hq : 2 ^ (j + 1) ∣ s.q.toNat) (hr : s.r.toNat < 2 * d.toNat) :
    (trialSubtract d s).bit = s.bit ∧ (trialSubtract d s).r.toNat < d.toNat ∧
    2 ^ j ∣ (trialSubtract d s).q.toNat ∧
    (trialSubtract d s).q.toNat * d.toNat + (trialSubtract d s).r.toNat * 2 ^ j =
      s.q.toNat * d.toNat + s.r.toNat * 2 ^ j := by
  rw [trialSubtract]
  split
  · next hle =>
    have hle' : d.toNat ≤ s.r.toNat := hle
    have hsub : (s.r - d).toNat = s.r.toNat - d.toNat := BitVec.toNat_sub_of_le hle
    have hor : (s.q ||| s.bit).toNat = s.q.toNat + 2 ^ j := by
      obtain ⟨c, hc⟩ := hq
      rw [BitVec.toNat_or, hbit, hc, Nat.two_pow_add_eq_or_of_lt (Nat.pow_lt_pow_right (by norm_num) (by omega))]
    refine ⟨rfl, by rw [hsub]; omega, ?_, ?_⟩
    · rw [hor]
      exact dvd_add ((pow_dvd_pow 2 (Nat.le_succ j)).trans hq) dvd_rfl
    · rw [hor, hsub]
      obtain ⟨x, hx⟩ := Nat.exists_eq_add_of_le hle'
      rw [hx, Nat.add_sub_cancel_left]
      ring
  · next hlt => exact ⟨rfl, by rw [BitVec.le_def] at hlt; omega, (pow_dvd_pow 2 (Nat.le_succ j)).trans hq, rfl⟩

/-- What the restoring loop keeps, for the total `t` it divides by `2 * d`. The weight is `2 ^ e / 2`, so `e` counts the
iterations left, and `e = 0` stands for the weight 0. -/
structure Restoring (t : Nat) (d : Word16) (e : Nat) (s : DivRegs) : Prop where
  weight : s.bit.toNat = 2 ^ e / 2
  multiple : 2 ^ e ∣ s.q.toNat
  remainder : s.r.toNat < 2 * d.toNat
  balance : t = 2 * (s.q.toNat * d.toNat) + s.r.toNat * 2 ^ e

/-- The loop goes on while iterations are left and the remainder is not zero. -/
theorem Restoring.goesOn_iff {t : Nat} {d : Word16} {e : Nat} {s : DivRegs} (h : Restoring t d e s) :
    restoringGoesOn s = true ↔ e ≠ 0 ∧ s.r.toNat ≠ 0 := by
  have hbit : s.bit.toNat = 0 ↔ e = 0 := by
    rw [h.weight]
    cases e with
    | zero => simp
    | succ e => simp [pow_succ]
  rw [restoringGoesOn, Bool.and_eq_true, bne_iff_ne, bne_iff_ne, ← BitVec.toNat_ne_iff_ne, ← BitVec.toNat_ne_iff_ne]
  exact and_congr (not_congr hbit) Iff.rfl

/-- One iteration halves the weight and keeps the rest. No bit leaves the remainder, because `d` is at most 15 bits. -/
theorem restoringStep_restoring {t : Nat} {d : Word16} {e : Nat} {s : DivRegs} (hd : d.toNat < 32768)
    (h : Restoring t d (e + 1) s) : Restoring t d e (restoringStep d s) := by
  have hbit : s.bit.toNat = 2 ^ e := by rw [h.weight, pow_succ, Nat.mul_div_cancel _ (by norm_num)]
  obtain ⟨hb, hr, hq, hbal⟩ := trialSubtract_keeps hbit h.multiple h.remainder
  have hshift : ((trialSubtract d s).r <<< 1).toNat = 2 * (trialSubtract d s).r.toNat := by
    rw [BitVec.toNat_shiftLeft, Nat.shiftLeft_eq]; omega
  refine ⟨?_, hq, ?_, ?_⟩
  · rw [restoringStep, hb, BitVec.toNat_ushiftRight, hbit, Nat.shiftRight_eq_div_pow, pow_one]
  · rw [restoringStep, hshift]; omega
  · rw [restoringStep, hshift, h.balance, pow_succ]
    linarith

/-- With fuel for the iterations left, the loop ends. -/
theorem restoringLoop_restoring {t : Nat} {d : Word16} (hd : d.toNat < 32768) (fuel : Nat) {e : Nat} (he : e ≤ fuel)
    {s : DivRegs} (h : Restoring t d e s) :
    restoringGoesOn (restoringLoop d fuel s) = false ∧ ∃ e', Restoring t d e' (restoringLoop d fuel s) := by
  induction fuel generalizing e s with
  | zero =>
    have hstop : restoringGoesOn s = false := by rw [← Bool.not_eq_true, h.goesOn_iff]; omega
    exact ⟨hstop, e, h⟩
  | succ fuel ih =>
    rw [restoringLoop]
    split
    · next hgo =>
      obtain ⟨e, rfl⟩ := Nat.exists_eq_succ_of_ne_zero (h.goesOn_iff.mp hgo).1
      exact ih (by omega) (restoringStep_restoring hd h)
    · next hstop => exact ⟨by simpa using hstop, e, h⟩

/-- Where the loop has ended, quotient and remainder are those of `t / (2 * d)`. -/
theorem Restoring.ended {t : Nat} {d : Word16} {e : Nat} {s : DivRegs} (h : Restoring t d e s)
    (hstop : restoringGoesOn s = false) : t = s.r.toNat + s.q.toNat * (2 * d.toNat) := by
  have hend : e = 0 ∨ s.r.toNat = 0 := by
    have := h.goesOn_iff.not.mp (by simpa using hstop)
    omega
  have hlast : s.r.toNat * 2 ^ e = s.r.toNat := by
    rcases hend with rfl | hr
    · rw [pow_zero, mul_one]
    · rw [hr, zero_mul]
  rw [h.balance, hlast]
  ring

/-! From alignment to the loop. -/

/-- The manual step, where bit 15 of the working divisor is set, is the first trial subtraction; halving the divisor
instead of doubling the remainder keeps the ratio of divisor to weight. -/
theorem manualStep_restoring {d : Word16} {s : DivRegs} {j : Nat} (hbit : s.bit.toNat = 2 ^ (j + 1))
    (hq : s.q = 0#24) (hr : s.r.toNat ≤ d.toNat) (hpos : 0 < d.toNat) (heven : 32768 ≤ d.toNat → 2 ∣ d.toNat) :
    ∃ e ≤ j + 2, Restoring (s.r.toNat * 2 ^ e) (manualStep d s).1 e (manualStep d s).2 ∧
      (manualStep d s).1.toNat < 32768 ∧ 2 ^ e * d.toNat = (manualStep d s).1.toNat * 2 ^ (j + 2) := by
  rw [manualStep]
  split
  · next hmsb =>
    have hge : 32768 ≤ d.toNat := by have := BitVec.msb_eq_true_iff_two_mul_ge.mp hmsb; omega
    have hlt := d.isLt
    obtain ⟨c, hc⟩ := heven hge
    have hhalf : (d >>> 1).toNat = c := by rw [BitVec.toNat_ushiftRight, Nat.shiftRight_eq_div_pow]; omega
    obtain ⟨hb, hr', hq', hbal⟩ := trialSubtract_keeps (d := d) (s := s) hbit (by simp [hq]) (by omega)
    dsimp only
    refine ⟨j + 1, by omega, ⟨?_, hq', ?_, ?_⟩, ?_, ?_⟩
    · rw [hb, BitVec.toNat_ushiftRight, hbit, Nat.shiftRight_eq_div_pow, pow_one]
    · exact lt_of_lt_of_eq hr' (by rw [hhalf, hc])
    · rw [hq, BitVec.toNat_zero, zero_mul, zero_add, hc] at hbal
      rw [hhalf, ← hbal]
      ring
    · rw [hhalf]; omega
    · rw [hhalf, hc]; ring
  · next hmsb =>
    have hlt : d.toNat < 32768 := by
      have := BitVec.msb_eq_false_iff_two_mul_lt.mp (by simpa using hmsb); omega
    dsimp only
    refine ⟨j + 2, le_rfl, ⟨?_, by simp [hq], by omega, by simp [hq]⟩, hlt, mul_comm _ _⟩
    rw [hbit, pow_succ 2 (j + 1), Nat.mul_div_cancel _ (by norm_num)]

/-- The loop starts with the registers in order, after the manual step or without it. `2 * d` is to the total what the
divisor is to the dividend scaled by 256. -/
theorem loopStart_restoring (a : Word16) {b : Word16} (hb : b ≠ 0x0000#16) {k : Nat}
    (hal : AlignedBy (magnitude a) (magnitude b) 256 k (alignedFor a b)) :
    ∃ e ≤ k + 9, Restoring (magnitude a * 2 ^ e) (loopStart a b).1 e (loopStart a b).2 ∧
      (loopStart a b).1.toNat < 32768 ∧ 2 ^ e * magnitude b = 512 * (loopStart a b).1.toNat := by
  have hD := magnitude_pos hb
  have hDle := magnitude_le b
  have hk : 0 < 2 ^ k := Nat.two_pow_pos k
  have heven : 32768 ≤ (alignedFor a b).1.toNat → 2 ∣ (alignedFor a b).1.toNat := by
    rw [hal.divisor]
    cases k with
    | zero => intro h; omega
    | succ k => exact fun _ => Dvd.dvd.mul_left (dvd_pow_self 2 (by omega)) _
  obtain ⟨e, he, hrest, hlt, hratio⟩ := manualStep_restoring (d := (alignedFor a b).1)
    (s := { r := absU16 a, bit := (alignedFor a b).2, q := 0#24 }) (j := k + 7)
    (by rw [hal.weight, pow_add _ k 8, mul_comm]; rfl) rfl (by rw [absU16_toNat, hal.divisor]; exact hal.reaches)
    (by rw [hal.divisor]; positivity) heven
  rw [absU16_toNat] at hrest
  refine ⟨e, he, hrest, hlt, Nat.eq_of_mul_eq_mul_right hk ?_⟩
  rw [mul_assoc, ← hal.divisor, hratio, ← loopStart, pow_add _ k 9]
  ring

/-- `divMagnitude` by any total that is to `2 * d` what the scaled dividend is to the divisor. -/
theorem divMagnitude_of_ratio (cfg : Config) (a : Word16) {b : Word16} (hb : b ≠ 0x0000#16) {t d : Nat} (hd : 0 < d)
    (ht : t * magnitude b = 512 * magnitude a * d) :
    divMagnitude cfg a b = if cfg.rounding then (t + d) / (2 * d) else t / (2 * d) := by
  have hD := magnitude_pos hb
  have htrunc : 256 * magnitude a / magnitude b = t / (2 * d) := by
    rw [← Nat.mul_div_mul_right _ _ (by omega : 0 < 2 * d), ← Nat.mul_div_mul_right t _ hD, ht]
    congr 1 <;> ring
  have hround : (2 * (256 * magnitude a) + magnitude b) / (2 * magnitude b) = (t + d) / (2 * d) := by
    rw [← Nat.mul_div_mul_right _ _ hd, ← Nat.mul_div_mul_right (t + d) _ hD, add_mul t d, ht]
    congr 1 <;> ring
  rw [divMagnitude, htrunc, hround]

/-- Quotient and half-up rounding of a total split by a divisor `2 * d`. -/
theorem div_of_split {r q d : Nat} (hr : r < 2 * d) :
    (r + q * (2 * d)) / (2 * d) = q ∧ (r + q * (2 * d) + d) / (2 * d) = if d ≤ r then q + 1 else q := by
  have hpos : 0 < 2 * d := by omega
  constructor
  · rw [Nat.add_mul_div_right _ _ hpos, Nat.div_eq_of_lt hr, zero_add]
  · rw [Nat.add_right_comm, Nat.add_mul_div_right _ _ hpos]
    split
    · rw [Nat.div_eq_of_lt_le (k := 1) (by omega) (by omega), add_comm]
    · rw [Nat.div_eq_of_lt (by omega), zero_add]

/-- The rounding increment in the 24-bit quotient register. -/
theorem roundedQuotient_toNat (rounding : Bool) {q : BitVec 24} (d r : Word16) (hq : q.toNat < 16777215) :
    (if rounding && d ≤ r then q + 1#24 else q).toNat =
      if rounding then (if d.toNat ≤ r.toNat then q.toNat + 1 else q.toNat) else q.toNat := by
  have hinc : (q + 1#24).toNat = q.toNat + 1 := BitVec.toNat_add_of_lt (by simpa using by omega)
  cases rounding with
  | false => rfl
  | true =>
    by_cases hle : d.toNat ≤ r.toNat
    · simp [BitVec.le_def, hle, hinc]
    · simp [BitVec.le_def, hle]

/-- The registers when the restoring loop has ended. -/
def loopEnd (a b : Word16) : DivRegs := restoringLoop (loopStart a b).1 24 (loopStart a b).2

/-- The divider's 24-bit quotient, rounded, is `|Q|` (43_divide.md R117). -/
theorem restoringQuotient_toNat (cfg : Config) (a : Word16) {b : Word16} (hb : b ≠ 0x0000#16) :
    (if cfg.rounding && (loopStart a b).1 ≤ (loopEnd a b).r then (loopEnd a b).q + 1#24
      else (loopEnd a b).q).toNat = divMagnitude cfg a b := by
  obtain ⟨k, hk, hal⟩ := alignedFor_aligned a hb
  obtain ⟨e, he, hstart, hd, hratio⟩ := loopStart_restoring a hb hal
  obtain ⟨hstop, e', hend⟩ := restoringLoop_restoring hd 24 (by omega) hstart
  rw [← loopEnd] at hstop hend
  have hr := hend.remainder
  have hdiv := divMagnitude_of_ratio cfg a hb (t := magnitude a * 2 ^ e) (d := (loopStart a b).1.toNat) (by omega)
    (by rw [mul_assoc, hratio]; ring)
  obtain ⟨htrunc, hround⟩ := div_of_split hr (q := (loopEnd a b).q.toNat)
  rw [hend.ended hstop, htrunc, hround] at hdiv
  have hq : (loopEnd a b).q.toNat ≤ divMagnitude cfg a b := by rw [hdiv]; split_ifs <;> omega
  have hle := divMagnitude_le cfg a hb
  rw [roundedQuotient_toNat _ _ _ (by omega), hdiv]

/-- The divider's two overflow checks at the end, one for each sign, are the range check. -/
theorem restoreSign24_eq_narrow (cfg : Config) (sg : Bool) (q : BitVec 24) :
    (if sg then (if cfg.ovfCheck && 0x8000#24 ≤ q then sentinel else (-q).setWidth 16)
      else (if cfg.ovfCheck && 0x7FFF#24 < q then sentinel else q.setWidth 16)) =
        narrow cfg (signed sg q.toNat) := by
  have hle : 0x8000#24 ≤ q ↔ 32768 ≤ q.toNat := Iff.rfl
  have hlt : 0x7FFF#24 < q ↔ 32768 ≤ q.toNat := Iff.rfl
  rw [narrow_signed, ← setWidth16_restoreSign (by norm_num)]
  cases sg with
  | false => simp only [Bool.and_eq_true, decide_eq_true_eq, hlt, Bool.false_eq_true, if_false]
  | true => simp only [Bool.and_eq_true, decide_eq_true_eq, hle, if_true]

theorem divRestoring_eq (cfg : Config) (a b : Word16) : divRestoring cfg a b = divResult cfg a b := by
  by_cases hb : b = 0x0000#16
  · rw [divRestoring, if_pos hb, hb, divResult_zero]
  · rw [divRestoring, if_neg hb, divResult_of_ne cfg a hb, divQuotient_eq_signed]
    split
    · next hw =>
      rw [Bool.and_eq_true, decide_eq_true_eq] at hw
      have hq := divMagnitude_of_overflowingWeight cfg hb hw.2
      exact (narrow_of_abs_ge hw.1 (by rw [abs_signed]; omega)).symm
    · rw [← restoringQuotient_toNat cfg a hb]
      exact restoreSign24_eq_narrow cfg (signsDiffer a b) _

/-- 43_divide.md R116: either divider gives the rule's quotient. -/
theorem divDatapath_eq (cfg : Config) (a b : Word16) : divDatapath cfg a b = divResult cfg a b := by
  unfold divDatapath
  cases cfg.alg with
  | wide => exact divWide_eq cfg a b
  | limb => exact divRestoring_eq cfg a b

end Sys2Proof.Machine

/-! PROOFS. The statements of 00_scope.md: the default configuration (R13) and the ALG axis (R10). -/

namespace Sys2Proof.Machine

/-- Whatever ALG selects, the datapaths compute what the rules say (00_scope.md R10). -/
theorem datapathResult_eq_ruleResult (cfg : Config) (i : Instr) : datapathResult cfg i = ruleResult cfg i := by
  cases i with
  | add | sub | sadd | ssub => rfl
  | mul a b => exact mulDatapath_eq cfg a b
  | smul a b => exact congrArg (clampBySigns a b) (mulDatapath_eq cfg a b)
  | div a b => exact divDatapath_eq cfg a b
  | sdiv a b => exact congrArg (clampBySigns a b) (divDatapath_eq cfg a b)
  | mod a b => exact modDatapath_eq cfg a b
  | lerp8 a b f => exact lerpDatapath_eq le_rfl a b f
  | lerp16 a b f => exact lerpDatapath_eq le_rfl a b f
  | lerp32 a b f => rw [datapathResult, ruleResult, lerp32Result, lerpDatapath_eq le_rfl]

/-- The rules do not mention ALG. -/
theorem ruleResult_setAlg (cfg : Config) (x : Alg) (i : Instr) :
    ruleResult { cfg with alg := x } i = ruleResult cfg i := by
  cases i <;> rfl

end Sys2Proof.Machine

/-- Settles O21: both are the default configuration of 00_scope.md R13. -/
theorem resetHasTheDefaultConfiguration : Obligations.ResetHasTheDefaultConfiguration := rfl

section
open Sys2Proof.Machine

/-- Settles O47: each datapath gives its rule's result, and no rule reads ALG. -/
theorem noResultDependsOnAlg : Obligations.NoResultDependsOnAlg := by
  intro cfg i
  refine ⟨datapathResult_eq_ruleResult cfg i, fun x => ?_⟩
  rw [datapathResult_eq_ruleResult, ruleResult_setAlg, datapathResult_eq_ruleResult]

end

/-! PROOFS. The step, said once: what it finds, what it does with it, and what a next state can be (10_state.md R20 to
R26; 70_reset_and_hazards.md R174, R176). -/

namespace Sys2Proof.Machine

/-! What a step finds. -/

/-- The block is computing already, or it takes what it presents and accepts the oldest waiting request, if any. -/
theorem fetch_cases (s : State) :
    ((∃ r n, s.phase = .computing r n) ∧ s.fetch = s) ∨
    (s.waiting = [] ∧ s.fetch = { s with phase := .idle }) ∨
    ∃ r rest, s.waiting = r :: rest ∧ s.fetch = { s with waiting := rest, phase := .computing r 0 } := by
  by_cases hbusy : ∃ r n, s.phase = .computing r n
  · obtain ⟨r, n, hp⟩ := hbusy
    exact .inl ⟨⟨r, n, hp⟩, fetch_of_computing hp⟩
  · have hnot : ∀ q n, s.phase ≠ .computing q n := fun q n hp => hbusy ⟨q, n, hp⟩
    cases hw : s.waiting with
    | nil => exact .inr (.inl ⟨rfl, by rw [fetch_of_none hnot hw, hw]⟩)
    | cons r rest => exact .inr (.inr ⟨r, rest, rfl, fetch_of_waiting hnot hw⟩)

/-- No response is still presented when a step computes. -/
theorem fetch_phase_cases (s : State) : s.fetch.phase = .idle ∨ ∃ r n, s.fetch.phase = .computing r n := by
  rcases fetch_cases s with ⟨hp, hf⟩ | ⟨-, hf⟩ | ⟨r, rest, -, hf⟩ <;> rw [hf]
  · exact .inr hp
  · exact .inl rfl
  · exact .inr ⟨r, 0, rfl⟩

/-- At most the oldest waiting request is gone. -/
theorem fetch_waiting_cases (s : State) :
    s.fetch.waiting = s.waiting ∨ ∃ r, s.waiting = r :: s.fetch.waiting := by
  rcases fetch_cases s with ⟨-, hf⟩ | ⟨-, hf⟩ | ⟨r, rest, hw, hf⟩ <;> rw [hf]
  · exact .inl rfl
  · exact .inl rfl
  · exact .inr ⟨r, hw⟩

theorem ready_ne_computing (p : Phase) (q : Request) (n : Nat) : p.ready ≠ .computing q n := by
  cases p <;> exact Phase.noConfusion

/-- A table word put first in line is the request the step computes, in any phase. -/
theorem fetch_withFetchWord (s : State) (nbits w : Nat) :
    (s.withFetchWord nbits w).fetch = { s with phase := .computing (Request.ofTableWord nbits w) 0 } :=
  fetch_of_waiting (ready_ne_computing s.phase) rfl

theorem decode_of_decodeTableWord {nbits w : Nat} {i : Instr} (h : decodeTableWord nbits w = some i) :
    decode (Request.ofTableWord nbits w) = .ok i := by
  unfold decodeTableWord at h
  cases hd : decode (Request.ofTableWord nbits w) with
  | error c => rw [hd] at h; cases h
  | ok j => rw [hd] at h; cases h; rfl

/-! What a step does. -/

theorem step_of_idle {s : State} (h : s.fetch.phase = .idle) : step s = .next s.fetch := by
  simp [step, h]

theorem step_of_decode_ok {s : State} {r : Request} {n : Nat} {i : Instr} (h : s.fetch.phase = .computing r n)
    (hd : decode r = .ok i) : step s = exec i s.fetch := by
  simp [step, h, hd]

theorem step_of_decode_error {s : State} {r : Request} {n : Nat} {c : IllegalCause}
    (h : s.fetch.phase = .computing r n) (hd : decode r = .error c) : step s = .fault (.illegal c) := by
  simp [step, h, hd, raiseIllegal]

/-- How a transaction ends, given the answer to its request: with the response on the port, or in a fault. -/
def State.concluded (s : State) : Except IllegalCause Word16 → Host.Outcome State Fault Refusal
  | .ok v    => .next (s.respond v)
  | .error c => .fault (.illegal c)

/-- A step that finds a request ends it with the answer the rules give. -/
theorem step_of_computing {s : State} {r : Request} {n : Nat} (h : s.fetch.phase = .computing r n) :
    step s = s.fetch.concluded (answer s.cfg r) := by
  cases hd : decode r with
  | error c =>
    have ha : answer s.cfg r = .error c := by simp [answer, checked, hd]
    rw [step_of_decode_error h hd, ha, State.concluded]
  | ok i =>
    rw [step_of_decode_ok h hd, exec_eq, fetch_cfg]
    by_cases hi : i.availableIn s.cfg = true
    · rw [if_pos hi, answer_ok.mpr ⟨i, checked_ok.mpr ⟨hd, hi⟩, rfl⟩, State.concluded]
    · have ha : answer s.cfg r = .error .satWithoutOvfCheck := by simp [answer, checked, hd, hi]
      rw [if_neg hi, ha, State.concluded]

/-- On a block that is not computing, that request is the oldest waiting one. -/
theorem step_of_waiting {s : State} {r : Request} {rest : List Request} (h : ∀ q n, s.phase ≠ .computing q n)
    (hw : s.waiting = r :: rest) :
    step s = State.concluded { s with waiting := rest, phase := .computing r 0 } (answer s.cfg r) := by
  have hf := fetch_of_waiting h hw
  rw [← hf]
  exact step_of_computing (n := 0) (by rw [hf])

/-- All the next states of a step: idle with nothing to answer, or the response to the request it found. -/
theorem step_next {s t : State} (h : step s = .next t) :
    (t = s.fetch ∧ t.phase = .idle) ∨
    ∃ r n v, s.fetch.phase = .computing r n ∧ answer s.cfg r = .ok v ∧ t = s.fetch.respond v := by
  rcases fetch_phase_cases s with hp | ⟨r, n, hp⟩
  · rw [step_of_idle hp, Host.Outcome.next.injEq] at h
    exact .inl ⟨h.symm, h ▸ hp⟩
  · rw [step_of_computing hp] at h
    rcases answer_cases s.cfg r with ⟨v, ha⟩ | ⟨c, ha⟩ <;> rw [ha, State.concluded] at h
    · exact .inr ⟨r, n, v, hp, ha, (Host.Outcome.next.inj h).symm⟩
    · cases h

/-! Coherence of the handshake. -/

theorem coherent_of_idle {s : State} (h : s.phase = .idle) : s.coherent = true := by simp [State.coherent, h]

theorem coherent_of_presenting {s : State} {r : Request} (h : s.phase = .presenting r)
    (hr : rightResponse s.cfg r s.response = true) : s.coherent = true := by simpa [State.coherent, h] using hr

theorem rightResponse_of_answer {cfg : Config} {r : Request} {v : Word16} (h : answer cfg r = .ok v) :
    rightResponse cfg r { y := v, ill := false } = true := by simp [rightResponse, h]

/-- A response with the rules' answer to the request being computed leaves the handshake coherent. -/
theorem respond_coherent {s : State} {r : Request} {n : Nat} {v : Word16} (h : s.phase = .computing r n)
    (ha : answer s.cfg r = .ok v) : (s.respond v).coherent = true :=
  coherent_of_presenting (by rw [respond_phase, h, answered_computing])
    (by rw [respond_cfg, respond_response]; exact rightResponse_of_answer ha)

end Sys2Proof.Machine

/-! PROOFS. Patterns as rational numbers (10_state.md R31). -/

namespace Sys2Proof.Machine

theorem qvalue_lower (v : Word16) : -128 ≤ qvalue v := by
  have h : (-32768 : Rat) ≤ s16 v := by exact_mod_cast s16_lower v
  unfold qvalue
  linarith

theorem qvalue_upper (v : Word16) : qvalue v ≤ 127.99609375 := by
  have h : (s16 v : Rat) ≤ 32767 := by exact_mod_cast s16_upper v
  unfold qvalue
  linarith

theorem qvalue_u16 {k : Int} (hl : -32768 ≤ k) (hu : k ≤ 32767) : qvalue (u16 k) = (k : Rat) / 256 := by
  rw [qvalue, s16_u16 hl hu]

theorem qvalue_injective {v w : Word16} (h : qvalue v = qvalue w) : v = w := by
  have hs : (s16 v : Rat) = s16 w := (div_left_inj' (by norm_num)).mp h
  exact s16_injective (Int.cast_injective hs)

theorem qvalue_one : qvalue one = 1 := by
  have hs : s16 one = 256 := by decide
  norm_num [qvalue, hs]

theorem qvalue_maxWord : qvalue maxWord = 127.99609375 := by norm_num [qvalue]

theorem qvalue_minWord : qvalue minWord = -128 := by norm_num [qvalue]

end Sys2Proof.Machine

/-! PROOFS. The statements of 10_state.md. -/

section
open Sys2Proof Sys2Proof.Machine

/-- Settles O56, case by case of `step_next`: a step either ends idle or presents the answer it has just computed. So
coherence of the start state is not needed: a step keeps no response from before it. -/
theorem stepKeepsTheHandshakeCoherent : Obligations.StepKeepsTheHandshakeCoherent := by
  intro s t _ h
  rcases step_next h with ⟨rfl, hidle⟩ | ⟨r, n, v, hp, ha, rfl⟩
  · exact ⟨coherent_of_idle hidle, fetch_cfg s, fetch_waiting_cases s⟩
  · rw [← fetch_cfg s] at ha
    exact ⟨respond_coherent hp ha, fetch_cfg s, fetch_waiting_cases s⟩

/-- Settles O3. -/
theorem patternsAreTheMultiplesOfOneOver256 : Obligations.PatternsAreTheMultiplesOfOneOver256 :=
  ⟨fun v => ⟨rfl, qvalue_lower v, qvalue_upper v⟩, fun k hl hu => ⟨u16 k, qvalue_u16 hl hu⟩,
    fun _ _ => qvalue_injective⟩

/-- Settles O16: `step_of_waiting`, for each kind of answer. -/
theorem stepAnswersTheNextRequest : Obligations.StepAnswersTheNextRequest := by
  intro s r rest hp hw
  have hstep := step_of_waiting hp hw
  constructor
  · intro v ha
    rw [hstep, ha]
    rfl
  · intro c ha
    rw [hstep, ha]
    rfl

/-- Settles O17: both blocks conclude with one answer, which fixes the fault or the response. -/
theorem responseDependsOnRequestAndConfigurationOnly :
    Obligations.ResponseDependsOnRequestAndConfigurationOnly := by
  intro s₁ s₂ r rest₁ rest₂ hcfg hp₁ hp₂ hw₁ hw₂
  rw [step_of_waiting hp₁ hw₁, step_of_waiting hp₂ hw₂, hcfg]
  rcases answer_cases s₂.cfg r with ⟨v, ha⟩ | ⟨c, ha⟩
  · simp [ha, State.concluded]
  · simp [ha, State.concluded]

/-- Settles O4: the values are `qvalue` lemmas; the three sources of the pattern 0x8000 are evaluated. -/
theorem constantsAndTheAmbiguousPattern : Obligations.ConstantsAndTheAmbiguousPattern :=
  ⟨rfl, rfl, rfl, rfl, qvalue_one, qvalue_maxWord, qvalue_minWord, by decide, by decide, divResult_zero _ _⟩

/-- Settles O13: what the step finds, in either phase, is what it runs `exec` on. -/
theorem stepRunsTheDecodedInstruction : Obligations.StepRunsTheDecodedInstruction := by
  intro s r i hd
  constructor
  · intro rest hp hw
    have hf := fetch_of_waiting hp hw
    rw [← hf]
    exact step_of_decode_ok (n := 0) (by rw [hf]) hd
  · intro n hp
    have hf := fetch_of_computing hp
    rw [step_of_decode_ok (hf.symm ▸ hp) hd, hf]

/-- Settles O14. -/
theorem fetchWordRunsNext : Obligations.FetchWordRunsNext := by
  intro s nbits w i h
  have hf := fetch_withFetchWord s nbits w
  rw [← hf]
  exact step_of_decode_ok (n := 0) (by rw [hf]) (decode_of_decodeTableWord h)

/-- Settles O18: a next state of `exec` is the response, which writes the port and the phase only. -/
theorem onlyTheResponseIsWritten : Obligations.OnlyTheResponseIsWritten := by
  intro i s t h
  obtain ⟨-, rfl⟩ := exec_next h
  exact ⟨respond_cfg _ _, respond_waiting _ _, respond_freeCount _ _, respond_phase _ _, respond_ill _ _⟩

end

/-! PROOFS. The events at the ports, said once: what each operation of the cycle layer can do, what it keeps, and what
it closes (70_reset_and_hazards.md R170 to R174). -/

namespace Sys2Proof.Machine

/-! The answer on the port. -/

/-- The datapaths give the answer the rules give, result or cause (00_scope.md R10). -/
theorem hardwareAnswer_eq (cfg : Config) (r : Request) : hardwareAnswer cfg r = answer cfg r := by
  unfold hardwareAnswer answer
  cases checked cfg r with
  | ok i => exact congrArg Except.ok (datapathResult_eq_ruleResult cfg i)
  | error c => rfl

/-- The hardware either responds with the rules' result or gives the ILLEGAL response. -/
theorem presentAnswer_cases (r : Request) (s : State) :
    (∃ v, answer s.cfg r = .ok v ∧ s.presentAnswer r = s.respond v) ∨
    ∃ c, answer s.cfg r = .error c ∧ s.presentAnswer r = s.respondIllegal := by
  rcases answer_cases s.cfg r with ⟨v, ha⟩ | ⟨c, ha⟩
  · exact .inl ⟨v, ha, presentAnswer_ok ((hardwareAnswer_eq _ _).trans ha)⟩
  · exact .inr ⟨c, ha, presentAnswer_error (hardwareAnswer_error.mpr ha)⟩

section
variable (r : Request) (s : State)

@[simp] theorem presentAnswer_cfg : (s.presentAnswer r).cfg = s.cfg := by
  rcases presentAnswer_cases r s with ⟨v, -, h⟩ | ⟨c, -, h⟩ <;> rw [h] <;> rfl

@[simp] theorem presentAnswer_waiting : (s.presentAnswer r).waiting = s.waiting := by
  rcases presentAnswer_cases r s with ⟨v, -, h⟩ | ⟨c, -, h⟩ <;> rw [h] <;> rfl

@[simp] theorem presentAnswer_phase : (s.presentAnswer r).phase = s.phase.answered := by
  rcases presentAnswer_cases r s with ⟨v, -, h⟩ | ⟨c, -, h⟩ <;> rw [h] <;> rfl

/-- What the hardware puts on the port is the response the request calls for. -/
theorem presentAnswer_right : rightResponse s.cfg r (s.presentAnswer r).response = true := by
  rcases presentAnswer_cases r s with ⟨v, ha, h⟩ | ⟨c, ha, h⟩
  · rw [h, respond_response]
    exact rightResponse_of_answer ha
  · rw [h, rightResponse, ha]
    exact respondIllegal_response_ill s

end

/-! What accepting, a clock cycle and taking can do. -/

theorem accept_cases (s : State) :
    s.accept = s ∨
    ∃ r rest, s.phase = .idle ∧ s.waiting = r :: rest ∧
      s.accept = { s with waiting := rest, phase := .computing r 0 } := by
  by_cases hp : s.phase = .idle
  · cases hw : s.waiting with
    | nil => exact .inl (accept_of_none hw)
    | cons r rest => exact .inr ⟨r, rest, hp, rfl, accept_of_waiting hp hw⟩
  · exact .inl (accept_of_busy hp)

theorem cycle_cases (s : State) :
    s.cycle = s ∨
    ∃ r n, s.phase = .computing r n ∧
      ((n + 1 < Config.latency r.cmd ∧ s.cycle = { s with phase := .computing r (n + 1) }) ∨
        (Config.latency r.cmd ≤ n + 1 ∧ s.cycle = s.presentAnswer r)) := by
  cases hp : s.phase with
  | idle | presenting => exact .inl (by simp [State.cycle, hp])
  | computing r n =>
    refine .inr ⟨r, n, rfl, ?_⟩
    by_cases hn : n + 1 < Config.latency r.cmd
    · exact .inl ⟨hn, cycle_of_early hp hn⟩
    · exact .inr ⟨Nat.le_of_not_lt hn, cycle_of_due hp hn⟩

/-- A presented response is taken and its request closed with it; else nothing is taken or closed. -/
theorem take_cases (s : State) :
    (s.take = s ∧ closedBy .take s = []) ∨
    ∃ r, s.phase = .presenting r ∧ s.take = { s with phase := .idle } ∧
      closedBy .take s = [(r, some s.response)] := by
  cases hp : s.phase with
  | idle => exact .inl ⟨take_of_idle hp, by simp [closedBy, hp]⟩
  | computing r n => exact .inl ⟨take_of_computing hp, by simp [closedBy, hp]⟩
  | presenting r => exact .inr ⟨r, rfl, take_of_presenting hp, by simp [closedBy, hp]⟩

/-! The parameters (R173). -/

@[simp] theorem cycle_cfg (s : State) : s.cycle.cfg = s.cfg := by
  rcases cycle_cases s with h | ⟨r, n, -, ⟨-, h⟩ | ⟨-, h⟩⟩ <;> rw [h]
  exact presentAnswer_cfg r s

@[simp] theorem event_cfg (e : Event) (s : State) : (s.event e).cfg = s.cfg := by
  cases e with
  | present r => exact present_cfg s r
  | accept => exact accept_cfg s
  | cycle => exact cycle_cfg s
  | take => exact take_cfg s
  | reset => exact assertReset_cfg s

/-! The requests the block still owes a response to: the outstanding one, then those waiting. -/

/-- The requests that are offered and not closed, in order (`Trace.faithful`). -/
def State.pending (s : State) : List Request := s.phase.outstanding.toList ++ s.waiting

theorem faithful_iff (t : Trace) :
    t.faithful ↔ t.offered = t.closed.map Prod.fst ++ t.st.pending ∧
      t.closed.all (closedRight t.st.cfg) = true ∧ t.st.coherent = true := Iff.rfl

theorem present_pending (r : Request) (s : State) : (s.present r).pending = s.pending ++ [r] := by
  simp [State.pending]

/-- Accepting makes the oldest waiting request the outstanding one. -/
theorem accept_pending (s : State) : s.accept.pending = s.pending := by
  rcases accept_cases s with h | ⟨r, rest, hp, hw, h⟩
  · rw [h]
  · simp [State.pending, h, hp, hw]

/-- A cycle leaves the outstanding request outstanding, answered or not. -/
theorem cycle_pending (s : State) : s.cycle.pending = s.pending := by
  rcases cycle_cases s with h | ⟨r, n, hp, ⟨-, h⟩ | ⟨-, h⟩⟩
  · rw [h]
  · simp [State.pending, h, hp]
  · simp [State.pending, h, hp]

/-- Reset closes the outstanding request, if any, without a response (R171). -/
theorem closedBy_reset (s : State) :
    closedBy .reset s = s.phase.outstanding.toList.map fun r => (r, none) := by
  cases hp : s.phase <;> simp [closedBy, hp]

/-- What an event closes leaves at the front of the pending requests, and what it offers joins at their end. -/
theorem event_pending (e : Event) (s : State) :
    (closedBy e s).map Prod.fst ++ (s.event e).pending = s.pending ++ offeredBy e := by
  cases e with
  | present r => simp [closedBy, State.event, offeredBy, present_pending]
  | accept => simp [closedBy, State.event, offeredBy, accept_pending]
  | cycle => simp [closedBy, State.event, offeredBy, cycle_pending]
  | take =>
    rcases take_cases s with ⟨h, hc⟩ | ⟨r, hp, h, hc⟩
    · simp [State.event, offeredBy, h, hc]
    · simp [State.event, offeredBy, State.pending, h, hp, hc]
  | reset => simp [closedBy_reset, State.event, offeredBy, State.pending, Function.comp_def]

/-- On a coherent block, what an event closes with a response is closed with the right one. -/
theorem closedBy_right (e : Event) {s : State} (h : s.coherent = true) :
    (closedBy e s).all (closedRight s.cfg) = true := by
  cases e with
  | present | accept | cycle => simp [closedBy]
  | take =>
    rcases take_cases s with ⟨-, hc⟩ | ⟨r, hp, -, hc⟩
    · simp [hc]
    · have hr : rightResponse s.cfg r s.response = true := by simpa [State.coherent, hp] using h
      simp [hc, closedRight, hr]
  | reset => simp [closedBy_reset, closedRight]

/-! Coherence. -/

theorem coherent_of_computing {s : State} {r : Request} {n : Nat} (h : s.phase = .computing r n)
    (hn : n < Config.latency r.cmd) : s.coherent = true := by simpa [State.coherent, h] using hn

theorem present_coherent (r : Request) (s : State) : (s.present r).coherent = s.coherent := rfl

theorem accept_coherent {s : State} (h : s.coherent = true) : s.accept.coherent = true := by
  rcases accept_cases s with ha | ⟨r, rest, -, -, ha⟩ <;> rw [ha]
  · exact h
  · exact coherent_of_computing rfl (latency_pos r.cmd)

theorem cycle_coherent {s : State} (h : s.coherent = true) : s.cycle.coherent = true := by
  rcases cycle_cases s with hc | ⟨r, n, hp, ⟨hn, hc⟩ | ⟨-, hc⟩⟩ <;> rw [hc]
  · exact h
  · exact coherent_of_computing rfl hn
  · exact coherent_of_presenting (by rw [presentAnswer_phase, hp, answered_computing])
      (by rw [presentAnswer_cfg]; exact presentAnswer_right r s)

theorem take_coherent {s : State} (h : s.coherent = true) : s.take.coherent = true := by
  rcases take_cases s with ⟨ht, -⟩ | ⟨r, -, ht, -⟩ <;> rw [ht]
  · exact h
  · exact coherent_of_idle rfl

theorem assertReset_coherent (s : State) : s.assertReset.coherent = true := coherent_of_idle rfl

theorem event_coherent (e : Event) {s : State} (h : s.coherent = true) : (s.event e).coherent = true := by
  cases e with
  | present r => exact (present_coherent r s).trans h
  | accept => exact accept_coherent h
  | cycle => exact cycle_coherent h
  | take => exact take_coherent h
  | reset => exact assertReset_coherent s

end Sys2Proof.Machine

/-! PROOFS. Requests and responses as their bits (20_memory.md R43). -/

namespace Sys2Proof

/-- Each field is cut out of the number where it was put in. -/
@[simp] theorem Request.ofBits_toBits (r : Request) : Request.ofBits r.toBits = r := by
  obtain ⟨cmd, a, b, w⟩ := r
  have hcmd : (w ++ b ++ a ++ cmd).extractLsb' 0 8 = cmd := BitVec.extractLsb'_append_eq_right
  have ha : (w ++ b ++ a ++ cmd).extractLsb' 8 16 = a := by
    rw [BitVec.extractLsb'_append_eq_of_le le_rfl]
    exact BitVec.extractLsb'_append_eq_right
  have hb : (w ++ b ++ a ++ cmd).extractLsb' 24 16 = b := by
    rw [BitVec.extractLsb'_append_eq_of_le (by norm_num), BitVec.extractLsb'_append_eq_of_le le_rfl]
    exact BitVec.extractLsb'_append_eq_right
  have hw : (w ++ b ++ a ++ cmd).extractLsb' 40 32 = w := by
    rw [BitVec.extractLsb'_append_eq_of_le (by norm_num), BitVec.extractLsb'_append_eq_of_le (by norm_num)]
    exact BitVec.extractLsb'_append_eq_left
  simp only [Request.toBits, Request.ofBits, hcmd, ha, hb, hw]

/-- The four fields are next to each other and cover all 72 bits. -/
@[simp] theorem Request.toBits_ofBits (v : BitVec 72) : (Request.ofBits v).toBits = v := by
  have hwb : v.extractLsb' 40 32 ++ v.extractLsb' 24 16 = v.extractLsb' 24 48 :=
    BitVec.extractLsb'_append_extractLsb'_eq_extractLsb' rfl
  have hwba : v.extractLsb' 24 48 ++ v.extractLsb' 8 16 = v.extractLsb' 8 64 :=
    BitVec.extractLsb'_append_extractLsb'_eq_extractLsb' rfl
  have hall : v.extractLsb' 8 64 ++ v.extractLsb' 0 8 = v := BitVec.extractLsb'_append_extractLsb'
  simp only [Request.toBits, Request.ofBits, hwb, hwba, hall]

@[simp] theorem Response.ofBits_toBits (p : Response) : Response.ofBits p.toBits = p := by
  obtain ⟨y, ill⟩ := p
  have hy : (BitVec.ofBool ill ++ y).extractLsb' 0 16 = y := BitVec.extractLsb'_append_eq_right
  have hill : (BitVec.ofBool ill ++ y).getLsbD 16 = ill := by
    rw [BitVec.getLsbD_append, if_neg (by norm_num)]
    exact BitVec.getElem_ofBool_zero
  simp only [Response.toBits, Response.ofBits, hy, hill]

@[simp] theorem Response.toBits_ofBits (v : BitVec 17) : (Response.ofBits v).toBits = v := by
  have hill : BitVec.ofBool (v.getLsbD 16) = v.extractLsb' 16 1 := by
    ext i hi
    obtain rfl : i = 0 := by omega
    simp
  rw [Response.toBits, Response.ofBits, hill]
  exact BitVec.extractLsb'_append_extractLsb'

end Sys2Proof

/-! PROOFS. A run over legal requests (20_memory.md R45). -/

namespace Sys2Proof.Machine

/-- The block once it has answered `r` with `v`, with `rest` left to do. -/
def State.afterAnswer (s : State) (r : Request) (v : Word16) (rest : List Request) : State :=
  { s with waiting := rest, phase := .presenting r, y := v, ill := false }

/-- A legal request is one with a result for its answer. -/
theorem legalRequest_iff {cfg : Config} {r : Request} : legalRequest cfg r = true ↔ ∃ v, answer cfg r = .ok v := by
  unfold legalRequest answer
  cases checked cfg r <;> simp

theorem step_of_answer_ok {s : State} {r : Request} {rest : List Request} {v : Word16}
    (h : ∀ q n, s.phase ≠ .computing q n) (hw : s.waiting = r :: rest) (ha : answer s.cfg r = .ok v) :
    step s = .next (s.afterAnswer r v rest) := by
  rw [step_of_waiting h hw, ha]
  rfl

end Sys2Proof.Machine

/-! PROOFS. The statements of 20_memory.md. -/

section
open Sys2Proof Sys2Proof.Machine

/-- Settles O54: what an event closes it takes from the front of the pending requests (`event_pending`), and coherence
of the handshake makes the response it is closed with the right one (`closedBy_right`). -/
theorem eventsKeepTheTraceFaithful : Obligations.EventsKeepTheTraceFaithful := by
  intro t e hfaithful
  obtain ⟨hoffered, hclosed, hcoherent⟩ := (faithful_iff t).mp hfaithful
  refine (faithful_iff _).mpr ⟨?_, ?_, event_coherent e hcoherent⟩
  · calc t.offered ++ offeredBy e
        = t.closed.map Prod.fst ++ (t.st.pending ++ offeredBy e) := by rw [hoffered, List.append_assoc]
      _ = (t.closed ++ closedBy e t.st).map Prod.fst ++ (t.st.event e).pending := by
        rw [← event_pending, List.map_append, List.append_assoc]
  · calc (t.closed ++ closedBy e t.st).all (closedRight (t.st.event e).cfg)
        = (t.closed.all (closedRight t.st.cfg) && (closedBy e t.st).all (closedRight t.st.cfg)) := by
          rw [event_cfg, List.all_append]
      _ = true := by rw [hclosed, closedBy_right e hcoherent]; rfl

/-- Settles O5. -/
theorem requestsAndResponsesAreTheirBits : Obligations.RequestsAndResponsesAreTheirBits :=
  ⟨Request.ofBits_toBits, Request.toBits_ofBits, Response.ofBits_toBits, Response.toBits_ofBits⟩

/-- Settles O58, by induction on the legal requests before `r`: a step answers the first of them and leaves a block that
is not computing, with the others waiting. -/
theorem runAnswersTheQueueInOrder : Obligations.RunAnswersTheQueueInOrder := by
  intro rs r rest s hp hw hlegal v ha
  induction rs generalizing s with
  | nil => exact ⟨_, run_succ_of_next (step_of_answer_ok hp hw ha), rfl, rfl, rfl, rfl⟩
  | cons q qs ih =>
    obtain ⟨hq, hqs⟩ := List.forall_mem_cons.mp hlegal
    obtain ⟨u, hu⟩ := legalRequest_iff.mp hq
    rw [List.length_cons, run_succ_of_next (step_of_answer_ok hp hw hu)]
    exact ih (s.afterAnswer q u (qs ++ r :: rest)) (fun _ _ => Phase.noConfusion) rfl hqs ha

end

/-! PROOFS. The decoder and the encoder, said once: what part of a request the decoder reads, and that the encoder is
its inverse on that part (30_encoding.md R50 to R56). -/

namespace Sys2Proof

/-! The command byte and its two fields. -/

theorem Request.cmd_eq_append (r : Request) : r.cmd = r.rsvField ++ r.opField :=
  (BitVec.extractLsb'_append_extractLsb' (w := 4) (len := 4)).symm

theorem Request.cmd_toNat (r : Request) : r.cmd.toNat = 16 * r.rsvField.toNat + r.opField.toNat := by
  rw [r.cmd_eq_append, BitVec.toNat_append, Nat.shiftLeft_eq, Nat.mul_comm]
  exact (Nat.two_pow_add_eq_or_of_lt r.opField.isLt _).symm

theorem Request.rsvField_eq_zero_iff {r : Request} : r.rsvField = 0#4 ↔ r.cmd ≤ 0x0F#8 := by
  have := r.cmd_toNat
  bv_omega

/-- With the reserved bits clear, the code is the command byte. -/
theorem Request.opField_toNat {r : Request} (h : r.cmd ≤ 0x0F#8) : r.opField.toNat = r.cmd.toNat := by
  simp [r.cmd_toNat, Request.rsvField_eq_zero_iff.mpr h]

theorem Request.cmd_of_opField {r : Request} {k : Nat} (h : r.cmd ≤ 0x0F#8) (hop : r.opField.toNat = k) :
    r.cmd = BitVec.ofNat 8 k := by
  rw [← hop, Request.opField_toNat h, BitVec.ofNat_toNat, BitVec.setWidth_eq]

theorem decode_of_cmd_le {r : Request} (h : r.cmd ≤ 0x0F#8) : decode r = decodeOp r :=
  if_pos (Request.rsvField_eq_zero_iff.mpr h)

theorem decode_of_not_cmd_le {r : Request} (h : ¬r.cmd ≤ 0x0F#8) : decode r = .error .reservedBits :=
  if_neg (mt Request.rsvField_eq_zero_iff.mp h)

theorem command_range (i : Instr) : 0x01#8 ≤ i.command ∧ i.command ≤ 0x0C#8 := by
  cases i <;> simp [Instr.command]

@[simp] theorem encode_cmd (i : Instr) : (encode i).cmd = i.command := by cases i <;> rfl

/-! The part of a request that is read. -/

/-- The bits of `w` that the operation of the command byte reads, above them zeros (R55, R56). -/
def Request.weightRead (r : Request) : Word32 :=
  if r.cmd = 0x0A#8 then r.weight8.setWidth 32
  else if r.cmd = 0x0B#8 then r.weight16.setWidth 32
  else if r.cmd = 0x0C#8 then r.weight32
  else 0#32

/-- The request with every bit zero that its operation does not read (R56). -/
def Request.readPart (r : Request) : Request := { r with w := r.weightRead }

section
variable (r : Request)

@[simp] theorem Request.readPart_cmd : r.readPart.cmd = r.cmd := rfl
@[simp] theorem Request.readPart_a : r.readPart.a = r.a := rfl
@[simp] theorem Request.readPart_b : r.readPart.b = r.b := rfl
@[simp] theorem Request.readPart_w : r.readPart.w = r.weightRead := rfl
@[simp] theorem Request.readPart_opField : r.readPart.opField = r.opField := rfl

end

section
variable {r : Request}

theorem Request.weightRead_lerp8 (h : r.cmd = 0x0A#8) : r.weightRead = r.weight8.setWidth 32 := by
  simp [Request.weightRead, h]

theorem Request.weightRead_lerp16 (h : r.cmd = 0x0B#8) : r.weightRead = r.weight16.setWidth 32 := by
  simp [Request.weightRead, h]

theorem Request.weightRead_lerp32 (h : r.cmd = 0x0C#8) : r.weightRead = r.w := by
  simp [Request.weightRead, Request.weight32, h]

theorem Request.weightRead_two_operand (h : r.cmd ≤ 0x09#8) : r.weightRead = 0#32 := by
  have h8 : r.cmd ≠ 0x0A#8 := by bv_omega
  have h16 : r.cmd ≠ 0x0B#8 := by bv_omega
  have h32 : r.cmd ≠ 0x0C#8 := by bv_omega
  simp [Request.weightRead, h8, h16, h32]

end

/-- A weight of `n` bits put on the port reads back. -/
theorem extractLsb'_setWidth_self {n m : Nat} (h : n ≤ m) (f : BitVec n) : (f.setWidth m).extractLsb' 0 n = f := by
  rw [BitVec.extractLsb'_setWidth_of_le (by omega), BitVec.extractLsb'_eq_self]

/-- The bits of a weight read from the port are the port's. -/
theorem getLsbD_setWidth_extractLsb' {n k : Nat} (hk : k < n) (hn : n ≤ 32) (w : Word32) :
    ((w.extractLsb' 0 n).setWidth 32).getLsbD k = w.getLsbD k := by
  have hk32 : k < 32 := hk.trans_le hn
  simp [hk, hk32]

/-- The decoder does not look outside the part that is read: the three weights are in it. -/
theorem decode_readPart (r : Request) : decode r.readPart = decode r := by
  by_cases hcmd : r.cmd ≤ 0x0F#8
  · have h8 (hop : r.opField.toNat = 0xA) : r.readPart.weight8 = r.weight8 := by
      rw [Request.weight8, Request.readPart_w, Request.weightRead_lerp8 (Request.cmd_of_opField hcmd hop)]
      exact extractLsb'_setWidth_self (by norm_num) _
    have h16 (hop : r.opField.toNat = 0xB) : r.readPart.weight16 = r.weight16 := by
      rw [Request.weight16, Request.readPart_w, Request.weightRead_lerp16 (Request.cmd_of_opField hcmd hop)]
      exact extractLsb'_setWidth_self (by norm_num) _
    have h32 (hop : r.opField.toNat = 0xC) : r.readPart.weight32 = r.weight32 :=
      Request.weightRead_lerp32 (Request.cmd_of_opField hcmd hop)
    rw [decode_of_cmd_le hcmd, decode_of_cmd_le (r := r.readPart) hcmd]
    unfold decodeOp
    simp only [Request.readPart_opField, Request.readPart_a, Request.readPart_b]
    split
    case h_10 hop => rw [h8 hop]
    case h_11 hop => rw [h16 hop]
    case h_12 hop => rw [h32 hop]
    all_goals rfl
  · rw [decode_of_not_cmd_le hcmd, decode_of_not_cmd_le (r := r.readPart) hcmd]

/-! Decoding and encoding undo each other. -/

theorem decode_encode (i : Instr) : decode (encode i) = .ok i := by
  have hcmd : (encode i).cmd ≤ 0x0F#8 := by
    have := command_range i
    rw [encode_cmd]
    bv_omega
  rw [decode_of_cmd_le hcmd]
  cases i with
  | lerp8 a b f => exact congrArg (Except.ok <| Instr.lerp8 a b ·) (extractLsb'_setWidth_self (by norm_num) f)
  | lerp16 a b f => exact congrArg (Except.ok <| Instr.lerp16 a b ·) (extractLsb'_setWidth_self (by norm_num) f)
  | _ => rfl

/-- What decodes to an instruction has the instruction's encoding for the part that is read. -/
theorem encode_of_decode {r : Request} {i : Instr} (h : decode r = .ok i) : encode i = r.readPart := by
  have hcmd : r.cmd ≤ 0x0F#8 := by
    by_contra hgt
    rw [decode_of_not_cmd_le hgt] at h
    cases h
  rw [decode_of_cmd_le hcmd] at h
  unfold decodeOp at h
  split at h <;> cases h
  all_goals
    next hop =>
      have hc := Request.cmd_of_opField hcmd hop
      simp [encode, Instr.command, Request.readPart, Request.weightRead, Request.weight32, hc]

theorem cmd_of_decode {r : Request} {i : Instr} (h : decode r = .ok i) : r.cmd = i.command := by
  rw [← encode_cmd, encode_of_decode h, Request.readPart_cmd]

/-- The twelve command bytes of the operations are 0x01 to 0x0C (R51, R58). -/
theorem exists_decode_ok_iff {r : Request} : (∃ i, decode r = .ok i) ↔ 0x01#8 ≤ r.cmd ∧ r.cmd ≤ 0x0C#8 := by
  constructor
  · rintro ⟨i, h⟩
    exact cmd_of_decode h ▸ command_range i
  · rintro ⟨hl, hu⟩
    have hcmd : r.cmd ≤ 0x0F#8 := by bv_omega
    have hop : 1 ≤ r.opField.toNat ∧ r.opField.toNat ≤ 12 := by
      rw [Request.opField_toNat hcmd]
      exact ⟨hl, hu⟩
    rw [decode_of_cmd_le hcmd]
    unfold decodeOp
    generalize r.opField.toNat = k at hop ⊢
    obtain ⟨hkl, hku⟩ := hop
    interval_cases k <;> exact ⟨_, rfl⟩

theorem saturating_iff_command (i : Instr) :
    i.saturating = true ↔ i.command = 0x03#8 ∨ i.command = 0x04#8 ∨ i.command = 0x06#8 ∨ i.command = 0x08#8 := by
  cases i <;> simp [Instr.saturating, Instr.command]

end Sys2Proof

namespace Sys2Proof.Machine

/-- The answer depends on the part that is read only. -/
theorem answer_readPart (cfg : Config) (r : Request) : answer cfg r.readPart = answer cfg r := by
  simp only [answer, checked, decode_readPart]

theorem legalRequest_iff_decode {cfg : Config} {r : Request} :
    legalRequest cfg r = true ↔ ∃ i, decode r = .ok i ∧ i.availableIn cfg = true := by
  simp only [legalRequest_iff, answer_ok, checked_ok]
  exact ⟨fun ⟨_, i, h, _⟩ => ⟨i, h⟩, fun ⟨i, h⟩ => ⟨_, i, h, rfl⟩⟩

theorem availableIn_iff_command (cfg : Config) (i : Instr) :
    i.availableIn cfg = true ↔ cfg.ovfCheck = true ∨
      (i.command ≠ 0x03#8 ∧ i.command ≠ 0x04#8 ∧ i.command ≠ 0x06#8 ∧ i.command ≠ 0x08#8) := by
  have := saturating_iff_command i
  rw [Instr.availableIn, Bool.or_eq_true, Bool.not_eq_true', ← Bool.not_eq_true, this]
  tauto

/-- A command byte is legal if it is one of the twelve, and not a saturating one where overflow is not checked. -/
theorem legalRequest_iff_cmd {cfg : Config} {r : Request} :
    legalRequest cfg r = true ↔ (0x01#8 ≤ r.cmd ∧ r.cmd ≤ 0x0C#8) ∧
      (cfg.ovfCheck = true ∨ (r.cmd ≠ 0x03#8 ∧ r.cmd ≠ 0x04#8 ∧ r.cmd ≠ 0x06#8 ∧ r.cmd ≠ 0x08#8)) := by
  rw [legalRequest_iff_decode, ← exists_decode_ok_iff]
  constructor
  · rintro ⟨i, hd, hi⟩
    exact ⟨⟨i, hd⟩, cmd_of_decode hd ▸ (availableIn_iff_command cfg i).mp hi⟩
  · rintro ⟨⟨i, hd⟩, hc⟩
    exact ⟨i, hd, (availableIn_iff_command cfg i).mpr (cmd_of_decode hd ▸ hc)⟩

theorem legalRequest_standard_iff {r : Request} :
    legalRequest Config.standard r = true ↔ 0x01#8 ≤ r.cmd ∧ r.cmd ≤ 0x0C#8 := by
  simp [legalRequest_iff_cmd, Config.standard]

theorem countP_legalRequest_standard (a b : Word16) (w : Word32) :
    ((List.range 256).countP fun c => legalRequest Config.standard ⟨BitVec.ofNat 8 c, a, b, w⟩) = 12 := by
  have hcount : ((List.range 256).countP fun c => 0x01#8 ≤ BitVec.ofNat 8 c ∧ BitVec.ofNat 8 c ≤ 0x0C#8) = 12 := by
    rw [List.countP_eq_length_filter]
    rfl
  rw [← hcount]
  exact List.countP_congr fun c _ => by rw [legalRequest_standard_iff, decide_eq_true_iff]

end Sys2Proof.Machine

/-! PROOFS. The statements of 30_encoding.md. -/

section
open Sys2Proof Sys2Proof.Machine

/-- Settles O8: the 72 bits lose nothing of the encoding, and the decoder reads each operand where the encoder put it. -/
theorem decodeOfEncodeIsTheInstruction : Obligations.DecodeOfEncodeIsTheInstruction := by
  intro i
  rw [Request.ofBits_toBits, decode_encode]

/-- Settles O9: the encoding is the part of the request that is read. -/
theorem encodeOfDecodeKeepsEveryBitRead : Obligations.EncodeOfDecodeKeepsEveryBitRead := by
  intro r i h
  rw [encode_of_decode h]
  refine ⟨rfl, rfl, rfl, fun hc k hk => ?_, fun hc k hk => ?_, Request.weightRead_lerp32⟩
  · rw [Request.readPart_w, Request.weightRead_lerp8 hc]
    exact getLsbD_setWidth_extractLsb' hk (by norm_num) r.w
  · rw [Request.readPart_w, Request.weightRead_lerp16 hc]
    exact getLsbD_setWidth_extractLsb' hk (by norm_num) r.w

/-- Settles O10: in each case the two requests have one read part, and so one answer. -/
theorem unreadPortBitsAreIgnored : Obligations.UnreadPortBitsAreIgnored := by
  intro cfg c a b w w' h
  have hread : Request.weightRead ⟨c, a, b, w⟩ = Request.weightRead ⟨c, a, b, w'⟩ := by
    rcases h with ⟨-, hc⟩ | ⟨hc, hw⟩ | ⟨hc, hw⟩
    · rw [Request.weightRead_two_operand hc, Request.weightRead_two_operand hc]
    · rw [Request.weightRead_lerp8 hc, Request.weightRead_lerp8 hc, Request.weight8, hw, Request.weight8]
    · rw [Request.weightRead_lerp16 hc, Request.weightRead_lerp16 hc, Request.weight16, hw, Request.weight16]
  rw [← answer_readPart, Request.readPart, hread]
  exact answer_readPart cfg ⟨c, a, b, w'⟩

/-- Settles O11: which command bytes are legal is `legalRequest_iff_cmd`, and they are counted. -/
theorem twelveLegalCommandBytes : Obligations.TwelveLegalCommandBytes := by
  intro a b w cfg
  have hlegal := countP_legalRequest_standard a b w
  refine ⟨hlegal, ?_, fun c => legalRequest_iff_cmd, fun hwide => ?_⟩
  · have htotal := List.length_eq_countP_add_countP
      (fun c => legalRequest Config.standard ⟨BitVec.ofNat 8 c, a, b, w⟩) (l := List.range 256)
    simp only [Bool.not_eq_true, Bool.decide_eq_false, List.length_range, hlegal] at htotal
    omega
  · have hd : decode ⟨0x0C#8, a, b, w⟩ = .ok (.lerp32 a b w) := decode_encode (.lerp32 a b w)
    rw [answer_ok]
    exact ⟨.lerp32 a b w, checked_ok.mpr ⟨hd, rfl⟩, by simp [ruleResult, lerp32Result, hwide]⟩

/-- Settles O6: a command byte up to 0x0F has its reserved bits clear, so the operation map alone decides. -/
theorem commandByteSelectsTheOperation : Obligations.CommandByteSelectsTheOperation := by
  intro a b w
  have hmap (c : Byte) (hc : c ≤ 0x0F#8) : decode ⟨c, a, b, w⟩ = decodeOp ⟨c, a, b, w⟩ := decode_of_cmd_le hc
  and_intros
  all_goals exact hmap _ (by decide)

/-- Settles O7, by evaluation. -/
theorem sampleWordsDecode : Obligations.SampleWordsDecode := by
  unfold Obligations.SampleWordsDecode
  decide

end

/-! PROOFS. ADD and SUB, said once: the overflow test is the range check of the exact sum or difference, and so their
results are those numbers narrowed, as MUL's and DIV's are (40_add_sub.md R70 to R73). -/

namespace Sys2Proof.Machine

/-! What the range check gives. -/

/-- In range, narrowing is exact. -/
theorem s16_narrow (cfg : Config) {q : Int} (hl : -32768 ≤ q) (hu : q ≤ 32767) : s16 (narrow cfg q) = q := by
  rw [narrow_of_le cfg hl (by omega), s16_u16 hl hu]

/-- Out of range, checking gives the sentinel. -/
theorem narrow_of_outOfRange {cfg : Config} (hc : cfg.ovfCheck = true) {q : Int} (hq : q < -32768 ∨ 32767 < q) :
    narrow cfg q = sentinel := by
  simp [narrow, hc, (outOfRange_iff q).mpr hq]

/-- With checking, a result that is not the sentinel is exact. -/
theorem s16_narrow_of_ne_sentinel {cfg : Config} (hc : cfg.ovfCheck = true) {q : Int}
    (h : narrow cfg q ≠ sentinel) : s16 (narrow cfg q) = q := by
  have hq : ¬(q < -32768 ∨ 32767 < q) := fun ho => h (narrow_of_outOfRange hc ho)
  exact s16_narrow cfg (by omega) (by omega)

/-! The overflow tests. -/

theorem neg_eq_decide (v : Word16) : neg v = decide (s16 v < 0) := by
  rw [Bool.eq_iff_iff, neg_iff, decide_eq_true_iff]

/-- The sign bit of a wrapped number. -/
theorem neg_u16_eq_decide (n : Int) : neg (u16 n) = decide (32768 ≤ n % 65536) := by
  rw [Bool.eq_iff_iff, neg_iff, decide_eq_true_iff, s16, u16, BitVec.toInt_ofInt, Int.bmod_def]
  split <;> omega

theorem addOverflows_eq_outOfRange (a b : Word16) :
    addOverflows a b (u16 (s16 a + s16 b)) = outOfRange (s16 a + s16 b) := by
  have hal := s16_lower a; have hau := s16_upper a
  have hbl := s16_lower b; have hbu := s16_upper b
  rw [Bool.eq_iff_iff, outOfRange_iff, addOverflows, neg_u16_eq_decide, neg_eq_decide a, neg_eq_decide b]
  simp only [Bool.and_eq_true, beq_iff_eq, bne_iff_ne, ne_eq, decide_eq_decide]
  omega

theorem subOverflows_eq_outOfRange (a b : Word16) :
    subOverflows a b (u16 (s16 a - s16 b)) = outOfRange (s16 a - s16 b) := by
  have hal := s16_lower a; have hau := s16_upper a
  have hbl := s16_lower b; have hbu := s16_upper b
  rw [Bool.eq_iff_iff, outOfRange_iff, subOverflows, neg_u16_eq_decide, neg_eq_decide a, neg_eq_decide b]
  simp only [Bool.and_eq_true, bne_iff_ne, ne_eq, decide_eq_decide]
  omega

/-- ADD narrows the exact sum. -/
theorem addResult_eq_narrow (cfg : Config) (a b : Word16) : addResult cfg a b = narrow cfg (s16 a + s16 b) := by
  rw [addResult, addOverflows_eq_outOfRange, narrow]

/-- SUB narrows the exact difference. -/
theorem subResult_eq_narrow (cfg : Config) (a b : Word16) : subResult cfg a b = narrow cfg (s16 a - s16 b) := by
  rw [subResult, subOverflows_eq_outOfRange, narrow]

/-! The overflow tests on bit 15, as the pseudocode of R70 and R71 writes them. -/

theorem addOverflows_iff_bit15 (a b sum : Word16) :
    addOverflows a b sum = true ↔ a.getLsbD 15 = b.getLsbD 15 ∧ sum.getLsbD 15 ≠ a.getLsbD 15 := by
  simp only [addOverflows, getLsbD_15, Bool.and_eq_true, beq_iff_eq, bne_iff_ne]

theorem subOverflows_iff_bit15 (a b d : Word16) :
    subOverflows a b d = true ↔ a.getLsbD 15 ≠ b.getLsbD 15 ∧ d.getLsbD 15 ≠ a.getLsbD 15 := by
  simp only [subOverflows, getLsbD_15, Bool.and_eq_true, bne_iff_ne]

theorem addResult_eq_ite (cfg : Config) (a b : Word16) :
    addResult cfg a b =
      if cfg.ovfCheck = true ∧ a.getLsbD 15 = b.getLsbD 15 ∧ (u16 (s16 a + s16 b)).getLsbD 15 ≠ a.getLsbD 15
      then sentinel else u16 (s16 a + s16 b) :=
  if_congr (by rw [Bool.and_eq_true, addOverflows_iff_bit15]) rfl rfl

theorem subResult_eq_ite (cfg : Config) (a b : Word16) :
    subResult cfg a b =
      if cfg.ovfCheck = true ∧ a.getLsbD 15 ≠ b.getLsbD 15 ∧ (u16 (s16 a - s16 b)).getLsbD 15 ≠ a.getLsbD 15
      then sentinel else u16 (s16 a - s16 b) :=
  if_congr (by rw [Bool.and_eq_true, subOverflows_iff_bit15]) rfl rfl

theorem subResult_self (cfg : Config) (a : Word16) : subResult cfg a a = 0x0000#16 := by
  rw [subResult_eq_narrow, sub_self, narrow_of_le cfg (by norm_num) (by norm_num)]
  rfl

/-! Completion, and what an observer of the port sees. -/

/-- An operation that is not a saturating one completes in every configuration. -/
theorem exec_of_not_saturating {i : Instr} (h : i.saturating = false) (s : State) :
    exec i s = .next (s.respond (ruleResult s.cfg i)) := by
  rw [exec_eq, Instr.availableIn, h]
  rfl

/-- Two states whose configurations offer an operation alike, with one result, show one fault or one result. -/
theorem exec_observed_congr {i : Instr} {s s' : State} (ha : i.availableIn s'.cfg = i.availableIn s.cfg)
    (hr : ruleResult s'.cfg i = ruleResult s.cfg i) :
    (∀ f, exec i s = .fault f ↔ exec i s' = .fault f) ∧
    ∀ v, (∃ t, exec i s = .next t ∧ t.y = v) ↔ ∃ t, exec i s' = .next t ∧ t.y = v := by
  rw [exec_eq, exec_eq, ha, hr]
  by_cases h : i.availableIn s.cfg = true
  · simp [h]
  · simp [h]

/-- Whether a block offers an operation is a matter of OVF_CHECK only (60_exceptions.md R152). -/
theorem availableIn_setRoundingAlg (cfg : Config) (r : Bool) (x : Alg) (i : Instr) :
    i.availableIn { cfg with rounding := r, alg := x } = i.availableIn cfg := rfl

/-- The four rules of the add and subtract family mention neither ROUNDING nor ALG (R74, R84). -/
theorem ruleResult_setRoundingAlg (cfg : Config) (r : Bool) (x : Alg) {a b : Word16} {i : Instr}
    (hi : i = .add a b ∨ i = .sub a b ∨ i = .sadd a b ∨ i = .ssub a b) :
    ruleResult { cfg with rounding := r, alg := x } i = ruleResult cfg i := by
  rcases hi with rfl | rfl | rfl | rfl <;> rfl

end Sys2Proof.Machine

/-! PROOFS. How far the rounded quotients of MUL and DIV are from the real ones (42_multiply.md R90, 43_divide.md
R111). -/

namespace Sys2Proof.Machine

/-- Rounding a magnitude half up is rounding the fraction. -/
theorem roundHalfUp_eq_round (n : Nat) {d : Nat} (hd : 0 < d) :
    (((2 * n + d) / (2 * d) : Nat) : Int) = round ((n : Rat) / d) := by
  have hd' : (d : Rat) ≠ 0 := by exact_mod_cast hd.ne'
  have hhalf : (n : Rat) / d + 1 / 2 = ((2 * n + d : Nat) : Rat) / ((2 * d : Nat) : Rat) := by
    push_cast
    field_simp
  rw [round_eq, hhalf, Rat.floor_natCast_div_natCast]
  rfl

/-- The signs of dividend and divisor do not matter to how far a quotient by sign and magnitude is from the real one. -/
theorem abs_signed_sub_div (s t : Bool) (q n d : Nat) :
    |(signed (s ^^ t) q : Rat) - (signed s n : Rat) / (signed t d : Rat)| = |(q : Rat) - (n : Rat) / d| := by
  cases s <;> cases t <;> simp [neg_div, div_neg, neg_add_eq_sub, abs_sub_comm]

/-- A quotient rounded by sign and magnitude is within half of the real one. -/
theorem abs_roundHalfUp_sub_le (s t : Bool) (n : Nat) {d : Nat} (hd : 0 < d) :
    |(signed (s ^^ t) ((2 * n + d) / (2 * d)) : Rat) - (signed s n : Rat) / (signed t d : Rat)| ≤ 1 / 2 := by
  rw [abs_signed_sub_div, abs_sub_comm, ← Int.cast_natCast ((2 * n + d) / (2 * d)), roundHalfUp_eq_round n hd]
  exact abs_sub_round _

/-- MUL's rounded `Q` is within half of `P / 256`. -/
theorem abs_mulQuotient_sub_le {cfg : Config} (hr : cfg.rounding = true) (a b : Word16) :
    |(mulQuotient cfg a b : Rat) - (product a b : Rat) / 256| ≤ 1 / 2 := by
  have h := abs_roundHalfUp_sub_le (signsDiffer a b) false (magnitude a * magnitude b) (d := 256) (by norm_num)
  rw [mulQuotient, if_pos hr, product_eq_signed, rha_signed _ _ (by norm_num)]
  simpa using h

theorem signed_scaled (sg : Bool) (k m : Nat) : signed sg (k * m) = k * signed sg m := by cases sg <;> simp

/-- DIV's rounded `Q` is within half of the quotient of `256 * a` by `b`. -/
theorem abs_divQuotient_sub_le {cfg : Config} (hr : cfg.rounding = true) (a : Word16) {b : Word16}
    (hb : b ≠ 0x0000#16) : |(divQuotient cfg a b : Rat) - 256 * (s16 a : Rat) / (s16 b : Rat)| ≤ 1 / 2 := by
  have hscaled : 256 * (s16 a : Rat) = signed (neg a) (256 * magnitude a) := by
    rw [signed_scaled, ← s16_eq_signed]
    norm_cast
  rw [hscaled, s16_eq_signed b, divQuotient_eq_signed, divMagnitude, if_pos hr]
  exact abs_roundHalfUp_sub_le (neg a) (neg b) _ (magnitude_pos hb)

/-- Half a unit of `s16` is half an LSB of the value. -/
theorem abs_qvalue_sub_le {y : Word16} {x : Rat} (h : |(s16 y : Rat) - 256 * x| ≤ 1 / 2) :
    |qvalue y - x| ≤ 1 / 512 := by
  rw [abs_le] at h ⊢
  obtain ⟨hl, hu⟩ := h
  unfold qvalue
  constructor <;> linarith

section
variable {cfg : Config} (hc : cfg.ovfCheck = true) (a b : Word16)
include hc

theorem qvalue_addResult (h : addResult cfg a b ≠ sentinel) :
    qvalue (addResult cfg a b) = qvalue a + qvalue b := by
  rw [addResult_eq_narrow] at h ⊢
  rw [qvalue, s16_narrow_of_ne_sentinel hc h, Int.cast_add, add_div, qvalue, qvalue]

theorem qvalue_subResult (h : subResult cfg a b ≠ sentinel) :
    qvalue (subResult cfg a b) = qvalue a - qvalue b := by
  rw [subResult_eq_narrow] at h ⊢
  rw [qvalue, s16_narrow_of_ne_sentinel hc h, Int.cast_sub, sub_div, qvalue, qvalue]

theorem abs_qvalue_mulResult_sub_le (hr : cfg.rounding = true) (h : mulResult cfg a b ≠ sentinel) :
    |qvalue (mulResult cfg a b) - qvalue a * qvalue b| ≤ 1 / 512 := by
  have hreal : 256 * (qvalue a * qvalue b) = (product a b : Rat) / 256 := by
    rw [qvalue, qvalue, product, Int.cast_mul]
    ring
  apply abs_qvalue_sub_le
  rw [hreal, mulResult, s16_narrow_of_ne_sentinel hc h]
  exact abs_mulQuotient_sub_le hr a b

/-- A zero divisor gives the sentinel, so what is left has a real quotient. -/
theorem abs_qvalue_divResult_sub_le (hr : cfg.rounding = true) (h : divResult cfg a b ≠ sentinel) :
    |qvalue (divResult cfg a b) - qvalue a / qvalue b| ≤ 1 / 512 := by
  have hb : b ≠ 0x0000#16 := fun hb => h (hb ▸ divResult_zero cfg a)
  have hreal : 256 * (qvalue a / qvalue b) = 256 * (s16 a : Rat) / (s16 b : Rat) := by
    rw [qvalue, qvalue, div_div_div_cancel_right₀ (by norm_num), mul_div_assoc]
  rw [divResult_of_ne cfg a hb] at h ⊢
  apply abs_qvalue_sub_le
  rw [hreal, s16_narrow_of_ne_sentinel hc h]
  exact abs_divQuotient_sub_le hr a hb

end

end Sys2Proof.Machine

/-! PROOFS. The statements of 40_add_sub.md. -/

section
open Sys2Proof Sys2Proof.Machine

/-- Settles O26: the tests are the range check of the exact number, and the results are that number narrowed. -/
theorem addSubExactOrSentinelOrWrapped : Obligations.AddSubExactOrSentinelOrWrapped := by
  intro a b s
  refine ⟨?_, ?_, ⟨_, exec_of_not_saturating rfl s, ?_⟩, ⟨_, exec_of_not_saturating rfl s, ?_⟩⟩
  · rw [addOverflows_eq_outOfRange, outOfRange_iff]
  · rw [subOverflows_eq_outOfRange, outOfRange_iff]
  · rw [respond_y, ruleResult, addResult_eq_narrow]
    exact ⟨fun _ => s16_narrow s.cfg, fun hc => narrow_of_outOfRange hc, fun hc => narrow_of_not_checking hc _⟩
  · rw [respond_y, ruleResult, subResult_eq_narrow]
    exact ⟨fun _ => s16_narrow s.cfg, fun hc => narrow_of_outOfRange hc, fun hc => narrow_of_not_checking hc _⟩

/-- Settles O49: each operation completes with its rule's result, which in range is the exact number (ADD, SUB) or the
rounded `Q` (MUL, DIV) over 256. -/
theorem resultsApproximateTheRealValues : Obligations.ResultsApproximateTheRealValues := by
  intro a b s hc
  exact ⟨⟨_, exec_of_not_saturating rfl s, qvalue_addResult hc a b⟩,
    ⟨_, exec_of_not_saturating rfl s, qvalue_subResult hc a b⟩,
    ⟨_, exec_of_not_saturating rfl s, abs_qvalue_mulResult_sub_le hc a b⟩,
    ⟨_, exec_of_not_saturating rfl s, abs_qvalue_divResult_sub_le hc a b⟩⟩

/-- Settles O24: the response is the rule's result, whose test reads bit 15 of the operands and the sum. -/
theorem addByRule : Obligations.AddByRule := by
  intro a b s
  rw [exec_of_not_saturating rfl, ruleResult, addResult_eq_ite]
  rfl

/-- Settles O25: the response is the rule's result, whose test reads bit 15 of the operands and the difference. -/
theorem subByRule : Obligations.SubByRule := by
  intro a b s
  refine ⟨?_, subResult_self s.cfg a⟩
  rw [exec_of_not_saturating rfl, ruleResult, subResult_eq_ite]
  rfl

/-- Settles O48: neither the check for the operation nor its rule reads the two parameters, and the datapath gives the
rule's result. -/
theorem addSubReadNeitherRoundingNorAlg : Obligations.AddSubReadNeitherRoundingNorAlg := by
  intro a b s r x i hi
  have hr := ruleResult_setRoundingAlg s.cfg r x hi
  obtain ⟨hfault, hresult⟩ := exec_observed_congr (s' := { s with cfg := { s.cfg with rounding := r, alg := x } })
    (availableIn_setRoundingAlg s.cfg r x i) hr
  refine ⟨hfault, hresult, ?_⟩
  rw [datapathResult_eq_ruleResult, datapathResult_eq_ruleResult, hr]

end

/-! PROOFS. The saturating operations: whether they complete, the overflow test they use, and the clamp of SADD and SSUB
(41_saturating_add_sub.md R80 to R83). -/

namespace Sys2Proof.Machine

/-! Completion of a saturating operation is a matter of OVF_CHECK (60_exceptions.md R152). -/

theorem exec_of_checking {s : State} (hc : s.cfg.ovfCheck = true) (i : Instr) :
    exec i s = .next (s.respond (ruleResult s.cfg i)) := by
  rw [exec_eq, Instr.availableIn, hc, Bool.or_true, if_pos rfl]

theorem exec_saturating_of_not_checking {i : Instr} (h : i.saturating = true) {s : State}
    (hc : s.cfg.ovfCheck = false) : exec i s = .fault (.illegal .satWithoutOvfCheck) := by
  rw [exec_eq, Instr.availableIn, h, hc]
  rfl

/-- What the sentinel test recognises: a number out of range, and the genuine −32768 (R82). -/
theorem reportsOverflow_narrow_iff {cfg : Config} (hc : cfg.ovfCheck = true) (q : Int) :
    reportsOverflow (narrow cfg q) = true ↔ q ≤ -32768 ∨ 32767 < q := by
  rw [reportsOverflow_iff]
  by_cases hq : q < -32768 ∨ 32767 < q
  · rw [narrow_of_outOfRange hc hq, s16_sentinel]
    omega
  · rw [s16_narrow cfg (by omega) (by omega)]
    omega

/-! The clamp. -/

/-- The clamp as the pseudocode of R80 and R81 writes it. -/
theorem clampBySignOf_eq_ite (a r : Word16) :
    clampBySignOf a r =
      if r = 0x8000#16 then (if a.getLsbD 15 = false then 0x7FFF#16 else 0x8000#16) else r := by
  rw [clampBySignOf, reportsOverflow, getLsbD_15]
  cases neg a <;> simp only [beq_iff_eq] <;> rfl

/-- Where the sign of `a` gives the end of the range a number has reached or passed, the clamp of the narrowed number is
the ideal one. -/
theorem s16_clampBySignOf_narrow {cfg : Config} (hc : cfg.ovfCheck = true) {a : Word16} {q : Int}
    (hlow : q ≤ -32768 → s16 a < 0) (hhigh : 32767 < q → 0 ≤ s16 a) :
    s16 (clampBySignOf a (narrow cfg q)) = max (-32768) (min q 32767) := by
  rw [clampBySignOf]
  split
  case isTrue hr =>
    rw [reportsOverflow_narrow_iff hc] at hr
    split
    case isTrue ha => rw [neg_iff] at ha; rw [s16_minWord]; omega
    case isFalse ha => rw [neg_iff] at ha; rw [s16_maxWord]; omega
  case isFalse hr =>
    rw [reportsOverflow_narrow_iff hc] at hr
    rw [s16_narrow cfg (by omega) (by omega)]
    omega

/-- A difference at or below −32768 has a negative minuend, one above 32767 a non-negative one. -/
theorem s16_ssubResult {cfg : Config} (hc : cfg.ovfCheck = true) (a b : Word16) :
    s16 (ssubResult cfg a b) = max (-32768) (min (s16 a - s16 b) 32767) := by
  have hbl := s16_lower b; have hbu := s16_upper b
  rw [ssubResult, subResult_eq_narrow]
  exact s16_clampBySignOf_narrow hc (by omega) (by omega)

/-- The sum −32768 of 0 and −32768 is the one at or below −32768 whose first operand is not negative. -/
theorem s16_saddResult {cfg : Config} (hc : cfg.ovfCheck = true) {a b : Word16}
    (hab : ¬(a = 0x0000#16 ∧ b = 0x8000#16)) :
    s16 (saddResult cfg a b) = max (-32768) (min (s16 a + s16 b) 32767) := by
  have hbl := s16_lower b; have hbu := s16_upper b
  have hne : ¬(s16 a = 0 ∧ s16 b = -32768) := fun ⟨ha, hb⟩ =>
    hab ⟨s16_injective (ha.trans (by decide)), s16_injective (hb.trans (by decide))⟩
  rw [saddResult, addResult_eq_narrow]
  exact s16_clampBySignOf_narrow hc (by omega) (by omega)

/-- Whatever OVF_CHECK is, that sum is the sentinel pattern. -/
theorem saddResult_zero_min (cfg : Config) : saddResult cfg 0x0000#16 0x8000#16 = 0x7FFF#16 := by
  rw [saddResult, addResult_eq_narrow, narrow_of_le cfg (by decide) (by decide)]
  decide

end Sys2Proof.Machine

/-! PROOFS. The statements of 41_saturating_add_sub.md. -/

section
open Sys2Proof Sys2Proof.Machine

/-- Settles O29: with checking both complete with their rule's result, which is the ideal clamp but for SADD's one pair. -/
theorem saturatingAddSubClamp : Obligations.SaturatingAddSubClamp := by
  intro a b s hc
  refine ⟨⟨_, exec_of_checking hc _, s16_ssubResult hc a b⟩, ⟨_, exec_of_checking hc _, s16_saddResult hc, ?_⟩⟩
  rintro ⟨rfl, rfl⟩
  exact saddResult_zero_min s.cfg

/-- Settles O27: the fault without checking; with it the rule's result, whose clamp tests the pattern and bit 15. -/
theorem saddByRule : Obligations.SaddByRule := by
  refine fun a b s => ⟨exec_saturating_of_not_checking rfl, fun hc => ?_⟩
  rw [exec_of_checking hc, ruleResult, saddResult, clampBySignOf_eq_ite]
  rfl

/-- Settles O28: the fault without checking; with it the rule's result, whose clamp tests the pattern and bit 15. -/
theorem ssubByRule : Obligations.SsubByRule := by
  refine fun a b s => ⟨exec_saturating_of_not_checking rfl, fun hc => ?_⟩
  rw [exec_of_checking hc, ruleResult, ssubResult, clampBySignOf_eq_ite]
  rfl

end

/-! PROOFS. What the two roundings of 00_scope.md section 5 do to a number (42_multiply.md R90). -/

namespace Sys2Proof.Machine

theorem exists_eq_signed (n : Int) : ∃ sg m, n = signed sg m := by
  obtain ⟨m, rfl | rfl⟩ := n.eq_nat_or_neg
  · exact ⟨false, m, rfl⟩
  · exact ⟨true, m, rfl⟩

theorem abs_signed_sub_signed (sg : Bool) (m n : Nat) : |signed sg m - signed sg n| = |(m : Int) - n| := by
  cases sg with
  | false => rfl
  | true => rw [signed_true, signed_true, ← abs_neg, neg_sub_neg, neg_sub]

/-- Rounding a magnitude half up misses by at most half the divisor, and by exactly half only from above. -/
theorem abs_mul_roundHalfUp_sub (m : Nat) {d : Nat} (hd : 0 < d) :
    2 * |((d * ((2 * m + d) / (2 * d)) : Nat) : Int) - m| ≤ d ∧
    (2 * |((d * ((2 * m + d) / (2 * d)) : Nat) : Int) - m| = d → m < d * ((2 * m + d) / (2 * d))) := by
  have hle := Nat.mul_div_le (2 * m + d) (2 * d)
  have hlt := Nat.lt_mul_div_succ (2 * m + d) (by omega : 0 < 2 * d)
  rw [mul_assoc] at hle
  rw [mul_assoc, mul_add_one] at hlt
  rcases abs_cases (((d * ((2 * m + d) / (2 * d)) : Nat) : Int) - m) with ⟨habs, -⟩ | ⟨habs, -⟩ <;> rw [habs]
  · constructor <;> omega
  · constructor <;> omega

/-- `rha` rounds to nearest, ties away from zero. -/
theorem rha_nearest_tiesAway (n : Int) {d : Nat} (hd : 0 < d) :
    2 * |d * rha n d - n| ≤ d ∧ (2 * |d * rha n d - n| = d → |n| < |d * rha n d|) := by
  obtain ⟨sg, m, rfl⟩ := exists_eq_signed n
  rw [rha_signed sg m hd, ← signed_scaled, abs_signed_sub_signed, abs_signed, abs_signed]
  exact_mod_cast abs_mul_roundHalfUp_sub m hd

/-- `>>a` is the floor. -/
theorem sra_floor (n : Int) (k : Nat) : 2 ^ k * sra n k ≤ n ∧ n < 2 ^ k * (sra n k + 1) := by
  have hpos : (0 : Int) < 2 ^ k := by positivity
  exact ⟨Int.mul_ediv_self_le hpos.ne', by rw [mul_add_one]; exact Int.lt_mul_ediv_self_add hpos⟩

end Sys2Proof.Machine

/-! PROOFS. MUL and SMUL, said once: the range of the exact product, the range check in terms of it, and the clamp that
restores the sign (42_multiply.md R90 to R99). -/

namespace Sys2Proof.Machine

/-! The exact product. -/

/-- Each of the two corner inequalities, weighted with the other's bound, leaves `P` alone. -/
theorem product_lower (a b : Word16) : -1073709056 ≤ product a b := by
  have hal := s16_lower a; have hau := s16_upper a
  have hbl := s16_lower b; have hbu := s16_upper b
  have hmin := mul_nonneg (by omega : 0 ≤ s16 a + 32768) (by omega : 0 ≤ s16 b + 32768)
  have hmax := mul_nonneg (by omega : 0 ≤ 32767 - s16 a) (by omega : 0 ≤ 32767 - s16 b)
  rw [product]
  linarith

theorem product_upper (a b : Word16) : product a b ≤ 1073741824 := (abs_le.mp (abs_product_le a b)).2

theorem product_zero (b : Word16) : product 0x0000#16 b = 0 := zero_mul (s16 b)

theorem mulQuotient_zero (cfg : Config) (b : Word16) : mulQuotient cfg 0x0000#16 b = 0 := by
  rw [mulQuotient, product_zero]
  cases cfg.rounding <;> rfl

theorem mulResult_zero (cfg : Config) (b : Word16) : mulResult cfg 0x0000#16 b = 0x0000#16 := by
  rw [mulResult, mulQuotient_zero, narrow_of_le cfg (by norm_num) (by norm_num)]
  rfl

/-! The range check. -/

/-- The range check as the pseudocode of R91 writes it. -/
theorem narrow_eq_ite (cfg : Config) (q : Int) :
    narrow cfg q = if cfg.ovfCheck = true ∧ (q < -32768 ∨ 32767 < q) then sentinel else u16 q :=
  if_congr (by rw [Bool.and_eq_true, outOfRange_iff]) rfl rfl

/-- With checking, the sentinel's pattern stands for a number out of range or the genuine −32768. -/
theorem narrow_eq_sentinel_iff {cfg : Config} (hc : cfg.ovfCheck = true) (q : Int) :
    narrow cfg q = sentinel ↔ q ≤ -32768 ∨ 32767 < q := by
  rw [← reportsOverflow_narrow_iff hc, reportsOverflow, beq_iff_eq]

/-- Where rounding carries `Q` to an end of the range or past it (R98). -/
theorem mulQuotient_range_of_rounding {cfg : Config} (hr : cfg.rounding = true) (a b : Word16) :
    (32767 < mulQuotient cfg a b ↔ 8388480 ≤ product a b) ∧
    (mulQuotient cfg a b = -32768 ↔ -8388735 ≤ product a b ∧ product a b ≤ -8388480) ∧
    (mulQuotient cfg a b < -32768 ↔ product a b ≤ -8388736) := by
  rw [mulQuotient_eq_sra, sra, wideAddend, if_pos hr]
  split <;> omega

/-- Where the floor puts `Q` at an end of the range or past it (R98). -/
theorem mulQuotient_range_of_not_rounding {cfg : Config} (hr : cfg.rounding = false) (a b : Word16) :
    (32767 < mulQuotient cfg a b ↔ 8388608 ≤ product a b) ∧
    (mulQuotient cfg a b = -32768 ↔ -8388608 ≤ product a b ∧ product a b ≤ -8388353) ∧
    (mulQuotient cfg a b < -32768 ↔ product a b ≤ -8388609) := by
  rw [mulQuotient, hr, if_neg Bool.false_ne_true, sra]
  omega

/-! The clamp by both operands' signs. -/

/-- The exclusive or of the operands carries the sign of their product and of their quotient. -/
theorem neg_xor (a b : Word16) : neg (a ^^^ b) = signsDiffer a b := BitVec.msb_xor

/-- So SMUL's and SDIV's clamp is SADD's and SSUB's, by the sign of that word. -/
theorem clampBySigns_eq_clampBySignOf (a b r : Word16) : clampBySigns a b r = clampBySignOf (a ^^^ b) r := by
  rw [clampBySigns, clampBySignOf, neg_xor]

/-- The clamp as the pseudocode of R93 writes it. -/
theorem clampBySigns_eq_ite (a b r : Word16) :
    clampBySigns a b r =
      if r = 0x8000#16 then (if a.getLsbD 15 = b.getLsbD 15 then 0x7FFF#16 else 0x8000#16) else r := by
  simp only [clampBySigns_eq_clampBySignOf, clampBySignOf_eq_ite, BitVec.getLsbD_xor, ← Bool.bne_eq_xor,
    bne_eq_false_iff_eq]

/-- A quotient by sign and magnitude, narrowed and clamped by the operands' signs, is the ideal clamp of it. -/
theorem clampBySigns_narrow_signed {cfg : Config} (hc : cfg.ovfCheck = true) (a b : Word16) (m : Nat) :
    clampBySigns a b (narrow cfg (signed (signsDiffer a b) m)) =
      u16 (max (-32768) (min (signed (signsDiffer a b) m) 32767)) := by
  have hsign := neg_iff (a ^^^ b)
  rw [neg_xor] at hsign
  rw [clampBySigns_eq_clampBySignOf, ← u16_s16 (clampBySignOf _ _), s16_clampBySignOf_narrow hc]
  all_goals
    cases hd : signsDiffer a b with
    | true => have := hsign.mp hd; rw [signed_true]; omega
    | false => have := (not_congr hsign).mp (by simp [hd]); rw [signed_false]; omega

theorem smulResult_eq_u16_clamp {cfg : Config} (hc : cfg.ovfCheck = true) (a b : Word16) :
    smulResult cfg a b = u16 (max (-32768) (min (mulQuotient cfg a b) 32767)) := by
  rw [smulResult, mulResult, mulQuotient_eq_signed]
  exact clampBySigns_narrow_signed hc a b _

/-! The order of the operands (R97). -/

theorem mulResult_comm (cfg : Config) (a b : Word16) : mulResult cfg a b = mulResult cfg b a := by
  rw [mulResult, mulQuotient, product_comm, ← mulQuotient, ← mulResult]

theorem smulResult_comm (cfg : Config) (a b : Word16) : smulResult cfg a b = smulResult cfg b a := by
  rw [smulResult, clampBySigns, signsDiffer_comm, mulResult_comm, ← clampBySigns, ← smulResult]

end Sys2Proof.Machine

/-! PROOFS. The statements of 42_multiply.md. -/

section
open Sys2Proof Sys2Proof.Machine

/-- Settles O2: `rha` rounds the magnitude half up, and `>>a` divides with the floor. -/
theorem roundingIsNearestTiesAway : Obligations.RoundingIsNearestTiesAway :=
  ⟨fun n _ hd => rha_nearest_tiesAway n hd, sra_floor⟩

/-- Settles O30: the response is `Q` narrowed, and the bounds of `P` are those of the operands. -/
theorem mulByRule : Obligations.MulByRule := by
  refine fun a b s =>
    ⟨?_, product_lower a b, product_upper a b, by decide, by decide, mulResult_zero s.cfg b⟩
  rw [exec_of_not_saturating rfl, ruleResult, mulResult, narrow_eq_ite]
  rfl

/-- Settles O31: the intervals are those of the shifted product with its addend, and the response is `Q` narrowed. -/
theorem mulRangeCheckOnTheProduct : Obligations.MulRangeCheckOnTheProduct := by
  intro a b s hc
  have hsentinel := narrow_eq_sentinel_iff hc (mulQuotient s.cfg a b)
  refine ⟨fun hr => mulQuotient_range_of_rounding hr a b, fun hr => mulQuotient_range_of_not_rounding hr a b,
    _, exec_of_checking hc _, ?_, ?_⟩ <;> rw [respond_y, ruleResult, mulResult]
  · exact hsentinel.trans (by omega)
  · intro hne
    have hin := (not_congr hsentinel).mp hne
    exact ⟨narrow_of_le s.cfg (by omega) (by omega), by omega, by omega⟩

/-- Settles O32: the fault without checking; with it MUL's result, clamped by bit 15 of both operands. -/
theorem smulByRule : Obligations.SmulByRule := by
  refine fun a b s =>
    ⟨exec_saturating_of_not_checking rfl, fun hc => ?_, fun hc => smulResult_eq_u16_clamp hc a b⟩
  rw [exec_of_checking hc, ruleResult, smulResult, clampBySigns_eq_ite]
  rfl

/-- Settles O33: with checking SMUL completes, and the sign of `Q` is the one its clamp reads off the operands. -/
theorem smulIsTheClampedQuotient : Obligations.SmulIsTheClampedQuotient :=
  fun a b _ hc => ⟨_, exec_of_checking hc _, smulResult_eq_u16_clamp hc a b⟩

/-- Settles O35: each multiplier gives the rule's result, and no rule reads ALG. -/
theorem multipliersAgreeWithTheRule : Obligations.MultipliersAgreeWithTheRule := by
  refine fun cfg a b => ⟨mulWide_eq cfg a b, mulLimb_eq cfg a b, fun x => ⟨?_, ?_⟩⟩ <;>
    rw [datapathResult_eq_ruleResult, ruleResult_setAlg] <;> rfl

/-- Settles O34: the product and the test of the signs are symmetric, and both orders complete or fault alike. -/
theorem mulCommutes : Obligations.MulCommutes := by
  intro a b s
  constructor
  · rw [exec_eq, exec_eq, ruleResult, ruleResult, mulResult_comm]
    rfl
  · rw [exec_eq, exec_eq, ruleResult, ruleResult, smulResult_comm]
    rfl

end

/-! PROOFS. DIV and SDIV, said once: `Q` and its sign as the pseudocode writes them, division by zero, and the magnitude
that rounding cannot carry into the overflow (43_divide.md R111, R114, R119). -/

namespace Sys2Proof.Machine

theorem signsDiffer_iff_bit15 (a b : Word16) : signsDiffer a b = true ↔ a.getLsbD 15 ≠ b.getLsbD 15 := by
  rw [signsDiffer, getLsbD_15, getLsbD_15, ← Bool.bne_eq_xor, bne_iff_ne]

/-- The sign of `Q` as the pseudocode of R111 writes it. -/
theorem divQuotient_eq_ite (cfg : Config) (a b : Word16) :
    divQuotient cfg a b =
      if a.getLsbD 15 ≠ b.getLsbD 15 then -(divMagnitude cfg a b : Int) else (divMagnitude cfg a b : Int) :=
  if_congr (signsDiffer_iff_bit15 a b) rfl rfl

theorem abs_divQuotient (cfg : Config) (a b : Word16) : |divQuotient cfg a b| = divMagnitude cfg a b := by
  rw [divQuotient_eq_signed, abs_signed]

theorem abs_divQuotient_le (cfg : Config) (a : Word16) {b : Word16} (hb : b ≠ 0x0000#16) :
    |divQuotient cfg a b| ≤ 8388608 := by
  rw [abs_divQuotient]
  exact_mod_cast divMagnitude_le cfg a hb

/-- Half of a non-zero divisor does not round a zero dividend up. -/
theorem divMagnitude_zero (cfg : Config) {b : Word16} (hb : b ≠ 0x0000#16) : divMagnitude cfg 0x0000#16 b = 0 := by
  have hD := magnitude_pos hb
  have hzero : magnitude 0x0000#16 = 0 := (magnitude_zero_iff _).mpr rfl
  rw [divMagnitude_eq_div, hzero]
  exact Nat.div_eq_of_lt (by split <;> omega)

theorem divQuotient_zero (cfg : Config) {b : Word16} (hb : b ≠ 0x0000#16) : divQuotient cfg 0x0000#16 b = 0 := by
  rw [← abs_eq_zero, abs_divQuotient, divMagnitude_zero cfg hb, Nat.cast_zero]

/-- An exact quotient below 32768 is below it by at least `256 / D`, and either that is more than half or `D` is too large
for the quotient to come near 32768 (R119). -/
theorem divMagnitude_lt_of_lt (cfg : Config) {a b : Word16} (h : 256 * magnitude a < 32768 * magnitude b) :
    divMagnitude cfg a b < 32768 := by
  have ha := magnitude_le a
  rw [divMagnitude_eq_div, Nat.div_lt_iff_lt_mul (by omega)]
  split <;> omega

/-- With checking, DIV's sentinel pattern stands for every magnitude that needs bit 15 or more (R119). -/
theorem divResult_eq_sentinel_iff {cfg : Config} (hc : cfg.ovfCheck = true) (a : Word16) {b : Word16}
    (hb : b ≠ 0x0000#16) : divResult cfg a b = sentinel ↔ 32768 ≤ |divQuotient cfg a b| := by
  rw [divResult_of_ne cfg a hb]
  refine ⟨fun h => ?_, narrow_of_abs_ge hc⟩
  rw [narrow_eq_sentinel_iff hc] at h
  rw [le_abs]
  omega

/-- By zero the clamp reads the sign of the dividend, because 0 counts as non-negative (R114). -/
theorem sdivResult_zero (cfg : Config) (a : Word16) :
    sdivResult cfg a 0x0000#16 = if a.getLsbD 15 then 0x8000#16 else 0x7FFF#16 := by
  have hsign : signsDiffer a 0x0000#16 = a.getLsbD 15 := by
    rw [getLsbD_15]
    exact Bool.xor_false _
  rw [sdivResult, divResult_zero, clampBySigns, hsign]
  rfl

theorem sdivResult_eq_u16_clamp {cfg : Config} (hc : cfg.ovfCheck = true) (a : Word16) {b : Word16}
    (hb : b ≠ 0x0000#16) : sdivResult cfg a b = u16 (max (-32768) (min (divQuotient cfg a b) 32767)) := by
  rw [sdivResult, divResult_of_ne cfg a hb, divQuotient_eq_signed]
  exact clampBySigns_narrow_signed hc a b _

/-! The restoring divider's numbers of steps (R118). -/

/-- 15 shifts take the weight from 256 to at most 2^23. -/
theorem AlignedBy.weight_le {r d k : Nat} {db : Word16 × BitVec 24} (h : AlignedBy r d 256 k db) (hk : k ≤ 15) :
    db.2 ≤ 0x800000#24 := by
  have hpow : 2 ^ k ≤ 2 ^ 15 := Nat.pow_le_pow_right (by norm_num) hk
  rw [BitVec.le_def, h.weight]
  exact Nat.mul_le_mul_left 256 hpow

/-- A weight that passes the overflow test was shifted at most 7 times. -/
theorem AlignedBy.shifts_le_of_weight_lt {r d k : Nat} {db : Word16 × BitVec 24} (h : AlignedBy r d 256 k db)
    (hw : db.2 < 0x010000#24) : k ≤ 7 := by
  have hw' : db.2.toNat < 65536 := hw
  rw [h.weight] at hw'
  exact Nat.le_of_lt_succ ((Nat.pow_lt_pow_iff_right (by norm_num)).mp (by omega : 2 ^ k < 2 ^ 8))

/-- With at most 16 iterations left the weight is at most 2^15. -/
theorem Restoring.weight_le {t : Nat} {d : Word16} {e : Nat} {s : DivRegs} (h : Restoring t d e s) (he : e ≤ 16) :
    s.bit ≤ 0x8000#24 := by
  have hpow : 2 ^ e ≤ 2 ^ 16 := Nat.pow_le_pow_right (by norm_num) he
  rw [BitVec.le_def, h.weight]
  exact Nat.div_le_div_right hpow

end Sys2Proof.Machine

/-! PROOFS. The statements of 43_divide.md. -/

section
open Sys2Proof Sys2Proof.Machine

/-- Settles O36: the response is the sentinel or `Q` narrowed, and the bounds of `Q` are those of its magnitude. -/
theorem divByRule : Obligations.DivByRule := by
  intro a b s n d qm q
  have hq : divQuotient s.cfg a b = q := divQuotient_eq_ite s.cfg a b
  constructor
  · rw [exec_of_not_saturating rfl, ruleResult, divResult, narrow_eq_ite, hq]
    rfl
  · intro hb
    rw [← hq]
    obtain ⟨hl, hu⟩ := abs_le.mp (abs_divQuotient_le s.cfg a hb)
    exact ⟨hl, hu, fun ha => ha ▸ divQuotient_zero s.cfg hb⟩

/-- Settles O37: the fault without checking; with it DIV's result, clamped by bit 15 of both operands. -/
theorem sdivByRule : Obligations.SdivByRule := by
  refine fun a b s => ⟨exec_saturating_of_not_checking rfl, fun hc => ?_, sdivResult_zero s.cfg a,
    fun hc hb => sdivResult_eq_u16_clamp hc a hb⟩
  rw [exec_of_checking hc, ruleResult, sdivResult, clampBySigns_eq_ite]
  rfl

/-- Settles O38: both operations complete with checking, and the sentinel and the clamp are read off `Q`. -/
theorem divSentinelAndSdivClamp : Obligations.DivSentinelAndSdivClamp :=
  fun a _ _ hc hb => ⟨⟨_, exec_of_checking hc _, divResult_eq_sentinel_iff hc a hb⟩, divMagnitude_lt_of_lt _,
    ⟨_, exec_of_checking hc _, sdivResult_eq_u16_clamp hc a hb⟩⟩

/-- Settles O39: each divider gives the rule's result, and no rule reads ALG. -/
theorem dividersAgreeWithTheRule : Obligations.DividersAgreeWithTheRule := by
  refine fun cfg a b => ⟨divWide_eq cfg a b, divRestoring_eq cfg a b, fun x => ⟨?_, ?_⟩⟩ <;>
    rw [datapathResult_eq_ruleResult, ruleResult_setAlg] <;> rfl

/-- Settles O40: `k ≤ 15` shifts leave at most `k + 9` iterations, and a weight below 2^16 means `k ≤ 7`. -/
theorem restoringDividerIsBounded : Obligations.RestoringDividerIsBounded := by
  refine ⟨fun a b hb => ?_, by decide⟩
  obtain ⟨k, hk, hal⟩ := alignedFor_aligned a hb
  obtain ⟨e, he, hstart, hd, -⟩ := loopStart_restoring a hb hal
  have hend (fuel : Nat) (hfuel : e ≤ fuel) := (restoringLoop_restoring hd fuel hfuel hstart).1
  refine ⟨?_, hal.weight_le hk, hend 24 (by omega), fun hw => ?_⟩
  · rw [BitVec.le_def, absU16_toNat, hal.divisor]
    exact hal.reaches
  · have hk7 := hal.shifts_le_of_weight_lt hw
    exact ⟨hstart.weight_le (by omega), hend 16 (by omega)⟩

end

/-! PROOFS. MOD, said once: its result by sign and magnitude, and what follows of its size, its sign and its corner
cases (44_modulo.md R130, R131, R134). -/

namespace Sys2Proof.Machine

theorem abs_s16 (v : Word16) : |s16 v| = magnitude v := Int.abs_eq_natAbs (s16 v)

/-- MIN is the one pattern of magnitude 32768. -/
theorem magnitude_lt_of_ne_minWord {v : Word16} (h : v ≠ minWord) : magnitude v < 32768 := by
  have hne : s16 v ≠ -32768 := fun hv => h (s16_injective (hv.trans s16_minWord.symm))
  have hl := s16_lower v; have hu := s16_upper v
  unfold magnitude
  omega

section
variable {a b : Word16}

/-- The remainder of the magnitudes with the dividend's sign: it is smaller than the divisor, so no bit is lost. -/
theorem s16_modResult (hb : b ≠ 0x0000#16) :
    s16 (modResult a b) = signed (neg a) (magnitude a % magnitude b) := by
  have hsmall : |signed (neg a) (magnitude a % magnitude b)| ≤ 32767 := by
    have hlt := Nat.mod_lt (magnitude a) (magnitude_pos hb)
    have hle := magnitude_le b
    rw [abs_signed]
    omega
  obtain ⟨hl, hu⟩ := abs_le.mp hsmall
  rw [modResult_of_ne hb, s16_eq_signed a, s16_eq_signed b, signed_tmod_signed, s16_u16 (by omega) hu]

/-- Wrapping the pseudocode's remainder changes nothing. -/
theorem s16_modResult_eq_sub (hb : b ≠ 0x0000#16) :
    s16 (modResult a b) = s16 a - s16 b * (s16 a).tdiv (s16 b) := by
  rw [s16_modResult hb, ← signed_tmod_signed (neg a) (neg b), ← s16_eq_signed, ← s16_eq_signed, Int.tmod_def]

theorem abs_s16_modResult_lt (hb : b ≠ 0x0000#16) : |s16 (modResult a b)| < |s16 b| := by
  rw [s16_modResult hb, abs_signed, abs_s16]
  exact_mod_cast Nat.mod_lt _ (magnitude_pos hb)

theorem signed_eq_zero_or_neg_iff (sg : Bool) (m : Nat) : signed sg m = 0 ∨ (signed sg m < 0 ↔ sg = true) := by
  cases sg with
  | false => exact .inr (by simp)
  | true => simp only [signed_true, iff_true]; omega

theorem s16_modResult_sign (hb : b ≠ 0x0000#16) :
    s16 (modResult a b) = 0 ∨ (s16 (modResult a b) < 0 ↔ s16 a < 0) := by
  rw [s16_modResult hb, ← neg_iff a]
  exact signed_eq_zero_or_neg_iff _ _

/-- A dividend of smaller magnitude is its own remainder. -/
theorem modResult_of_magnitude_lt (h : magnitude a < magnitude b) : modResult a b = a := by
  have hb : b ≠ 0x0000#16 := fun h0 => by rw [(magnitude_zero_iff b).mpr h0] at h; exact Nat.not_lt_zero _ h
  apply s16_injective
  rw [s16_modResult hb, Nat.mod_eq_of_lt h, ← s16_eq_signed]

theorem modResult_minWord (ha : a ≠ minWord) : modResult a minWord = a :=
  modResult_of_magnitude_lt (magnitude_lt_of_ne_minWord ha)

theorem modResult_self (ha : a ≠ 0x0000#16) : modResult a a = 0x0000#16 := by
  rw [modResult_of_ne ha, Int.tmod_self]
  rfl

theorem modResult_zero (hb : b ≠ 0x0000#16) : modResult 0x0000#16 b = 0x0000#16 :=
  modResult_of_magnitude_lt (magnitude_pos hb)

end

end Sys2Proof.Machine

/-! PROOFS. The statements of 44_modulo.md. -/

section
open Sys2Proof Sys2Proof.Machine

/-- Settles O41: the response is the rule's result, and its corner cases are those of the magnitudes' remainder. -/
theorem modByRule : Obligations.ModByRule :=
  fun _ _ s => ⟨exec_of_not_saturating rfl s, modResult_minWord, modResult_self,
    fun hb => ⟨modResult_zero hb, abs_s16_modResult_lt hb⟩⟩

/-- Settles O42: MOD completes with its rule's result, which takes no configuration and is the remainder of the
magnitudes with the dividend's sign. -/
theorem modIsTheTruncatingRemainder : Obligations.ModIsTheTruncatingRemainder := by
  refine fun a b s => ⟨_, exec_of_not_saturating rfl s, fun o r => ⟨_, exec_of_not_saturating rfl _, rfl⟩,
    fun hb => ?_⟩
  rw [respond_y, ruleResult]
  refine ⟨?_, abs_s16_modResult_lt hb, s16_modResult_sign hb⟩
  rw [s16_modResult_eq_sub hb, add_sub_cancel]

/-- Settles O43: each modulo unit gives the rule's result, and so does the one either ALG selects. -/
theorem moduloUnitsAgreeWithTheRule : Obligations.ModuloUnitsAgreeWithTheRule :=
  fun _ a b => ⟨modNative_eq a b, modLoop_eq a b, fun _ => modDatapath_eq _ a b⟩

end

/-! PROOFS. The blend, said once: what it is from either end point, the end points as its bounds, and so the value of
the response, in which no bit is lost (45_interpolate.md R140, R144). -/

namespace Sys2Proof.Machine

/-- The floor of a quotient is, but for less than one, no larger in size than the quotient. -/
theorem mul_abs_ediv_sub_one_lt (d : Int) {p : Int} (hp : 0 < p) : p * (|d / p| - 1) < |d| := by
  have hle := Int.mul_ediv_self_le (x := d) hp.ne'
  have hlt := Int.lt_mul_ediv_self_add (x := d) hp
  rcases le_or_gt 0 d with hd | hd
  · rw [abs_of_nonneg (Int.ediv_nonneg hd hp.le), abs_of_nonneg hd]
    linarith
  · rw [abs_of_neg (Int.ediv_neg_of_neg_of_pos hd hp), abs_of_neg hd]
    linarith

section
variable {n : Nat} (a b : Word16) (f : BitVec n)

/-! The exact blend. -/

/-- The start, and the weighted difference. -/
theorem lerpAcc_eq_add : lerpAcc a b f = (s16 b - s16 a) * weight f + s16 a * 2 ^ n := by
  unfold lerpAcc
  ring

theorem lerpAcc_self : lerpAcc a a f = s16 a * 2 ^ n := by simp [lerpAcc_eq_add]

/-- With the largest weight the blend is one difference short of the end. -/
theorem lerpAcc_of_largest_weight {f : BitVec n} (hf : f.toNat = 2 ^ n - 1) :
    lerpAcc a b f = (s16 a - s16 b) + s16 b * 2 ^ n := by
  have hw : weight f = 2 ^ n - 1 := by
    rw [weight, hf, Nat.cast_sub Nat.one_le_two_pow]
    norm_cast
  rw [lerpAcc_eq_add, hw]
  ring

/-- As a mean of its end points the blend is no less than the smaller one, scaled. -/
theorem min_mul_le_lerpAcc : min (s16 a) (s16 b) * 2 ^ n ≤ lerpAcc a b f := by
  have ha := mul_le_mul_of_nonneg_right (min_le_left (s16 a) (s16 b)) (sub_nonneg.mpr (weight_le f))
  have hb := mul_le_mul_of_nonneg_right (min_le_right (s16 a) (s16 b)) (weight_nonneg f)
  unfold lerpAcc
  linarith

theorem lerpAcc_le_max_mul : lerpAcc a b f ≤ max (s16 a) (s16 b) * 2 ^ n := by
  have ha := mul_le_mul_of_nonneg_right (le_max_left (s16 a) (s16 b)) (sub_nonneg.mpr (weight_le f))
  have hb := mul_le_mul_of_nonneg_right (le_max_right (s16 a) (s16 b)) (weight_nonneg f)
  unfold lerpAcc
  linarith

/-! The blend after the shift. -/

/-- The shift takes a multiple of 2^n out exactly. -/
theorem sra_add_mul_two_pow (d v : Int) (k : Nat) : sra (d + v * 2 ^ k) k = v + d / 2 ^ k := by
  rw [sra, Int.add_mul_ediv_right _ _ (by positivity), add_comm]

theorem min_le_sra_lerpAcc : min (s16 a) (s16 b) ≤ sra (lerpAcc a b f) n :=
  (Int.le_ediv_iff_mul_le (by positivity)).mpr (min_mul_le_lerpAcc a b f)

theorem sra_lerpAcc_le_max : sra (lerpAcc a b f) n ≤ max (s16 a) (s16 b) := by
  have h := Int.ediv_le_ediv (c := 2 ^ n) (by positivity) (lerpAcc_le_max_mul a b f)
  rwa [Int.mul_ediv_cancel _ (by positivity)] at h

/-! The response. -/

/-- Between its end points the shifted blend is a 16-bit value. -/
theorem s16_lerpResult : s16 (lerpResult a b f) = sra (lerpAcc a b f) n :=
  s16_u16 ((le_min (s16_lower a) (s16_lower b)).trans (min_le_sra_lerpAcc a b f))
    ((sra_lerpAcc_le_max a b f).trans (max_le (s16_upper a) (s16_upper b)))

theorem s16_lerpResult_eq_add :
    s16 (lerpResult a b f) = s16 a + (s16 b - s16 a) * weight f / 2 ^ n := by
  rw [s16_lerpResult, lerpAcc_eq_add, sra_add_mul_two_pow]

theorem s16_lerpResult_of_largest_weight {f : BitVec n} (hf : f.toNat = 2 ^ n - 1) :
    s16 (lerpResult a b f) = s16 b + (s16 a - s16 b) / 2 ^ n := by
  rw [s16_lerpResult, lerpAcc_of_largest_weight a b hf, sra_add_mul_two_pow]

theorem lerpResult_zero : lerpResult a b 0#n = a :=
  s16_injective (by simp [s16_lerpResult_eq_add, weight])

theorem lerpResult_self : lerpResult a a f = a :=
  s16_injective (by simp [s16_lerpResult_eq_add])

/-- The pseudocode, with the divisor as a number. -/
theorem lerpResult_eq_u16_div {p : Int} (hp : 2 ^ n = p) :
    lerpResult a b f = u16 ((s16 a * (p - (f.toNat : Int)) + s16 b * (f.toNat : Int)) / p) := by
  rw [← hp]
  rfl

end

end Sys2Proof.Machine

/-! PROOFS. The statements of 45_interpolate.md. -/

section
open Sys2Proof Sys2Proof.Machine

/-- Settles O44: the response is the rule's result, and its corner cases are those of every weight's width. -/
theorem lerpByRule : Obligations.LerpByRule := by
  refine fun a b s => ⟨fun f => ?_, fun f => ?_, fun f => ?_, lerpResult_zero a b, lerpResult_self a,
    lerpResult_zero a b, lerpResult_zero a b⟩
  · rw [exec_of_not_saturating rfl, ruleResult, lerpResult_eq_u16_div a b f (p := 256) (by norm_num)]
    rfl
  · rw [exec_of_not_saturating rfl, ruleResult, lerpResult_eq_u16_div a b f (p := 65536) (by norm_num)]
    rfl
  · rw [exec_of_not_saturating rfl, ruleResult, lerp32Result,
      lerpResult_eq_u16_div a b f (p := 4294967296) (by norm_num)]
    rfl

/-- Settles O45: the end points bound the shifted blend, and the largest weight leaves the floor of one difference. -/
theorem lerpStaysBetweenItsEndPoints : Obligations.LerpStaysBetweenItsEndPoints := by
  constructor
  · intro n a b f y
    have hy : s16 y = sra (lerpAcc a b f) n := s16_lerpResult a b f
    refine ⟨hy ▸ min_le_sra_lerpAcc a b f, hy ▸ sra_lerpAcc_le_max a b f, s16_lerpResult_eq_add a b f, fun hf => ?_⟩
    have hlast : s16 y = s16 b + (s16 a - s16 b) / 2 ^ n := s16_lerpResult_of_largest_weight a b hf
    refine ⟨hlast, ?_⟩
    rw [hlast, add_sub_cancel_left]
    exact mul_abs_ediv_sub_one_lt _ (by positivity)
  · refine fun a b s => ⟨fun _ => exec_of_not_saturating rfl s, fun _ => exec_of_not_saturating rfl s, fun hw f => ?_⟩
    rw [exec_of_not_saturating rfl, ruleResult, lerp32Result, if_pos hw]

/-- Settles O46: the blend's bounds, reached at MIN, are what an accumulator of n + 16 bits holds. -/
theorem lerpAccumulatorWidth : Obligations.LerpAccumulatorWidth := by
  refine fun n a b f => ⟨abs_le.mpr ⟨lerpAcc_lower a b f, ?_⟩, ?_, fun width hw => lerpDatapath_eq hw a b f⟩
  · exact (lerpAcc_upper a b f).trans (mul_le_mul_of_nonneg_right (by norm_num) (by positivity))
  · rw [lerpAcc_self, s16_minWord]
    ring

end

/-! PROOFS. What stops a step, said once: the faults of `exec`, the answer to a request the checks do not let through,
the step with nothing to answer, and the legal requests, which nothing stops (60_exceptions.md R150 to R160). -/

namespace Sys2Proof.Machine

/-! The fault of an operation (R152, R153). -/

theorem saturating_iff (i : Instr) :
    i.saturating = true ↔ ∃ a b, i = .sadd a b ∨ i = .ssub a b ∨ i = .smul a b ∨ i = .sdiv a b := by
  cases i <;> simp [Instr.saturating]

theorem availableIn_eq_false_iff {cfg : Config} {i : Instr} :
    i.availableIn cfg = false ↔ cfg.ovfCheck = false ∧ i.saturating = true := by
  rw [Instr.availableIn, Bool.or_eq_false_iff, Bool.not_eq_false', and_comm]

theorem exec_fault_iff {i : Instr} {s : State} {f : Fault} :
    exec i s = .fault f ↔ f = .illegal .satWithoutOvfCheck ∧ i.availableIn s.cfg = false := by
  rw [exec_eq]
  cases i.availableIn s.cfg with
  | true => simp
  | false => simp [eq_comm]

theorem exec_ne_refused (i : Instr) (s : State) (c : Refusal) : exec i s ≠ .refused c := by
  rw [exec_eq]
  split <;> nofun

/-! The answer to a request the checks do not let through (R155). -/

theorem decode_of_reserved_code {r : Request}
    (h : r.cmd = 0x00#8 ∨ r.cmd = 0x0D#8 ∨ r.cmd = 0x0E#8 ∨ r.cmd = 0x0F#8) : decode r = .error .reservedOp := by
  have hcmd : r.cmd ≤ 0x0F#8 := by rcases h with h | h | h | h <;> rw [h] <;> decide
  rw [decode_of_cmd_le hcmd, decodeOp, Request.opField_toNat hcmd]
  rcases h with h | h | h | h <;> rw [h] <;> rfl

theorem decode_of_saturating_code {r : Request}
    (h : r.cmd = 0x03#8 ∨ r.cmd = 0x04#8 ∨ r.cmd = 0x06#8 ∨ r.cmd = 0x08#8) :
    ∃ i, decode r = .ok i ∧ i.saturating = true := by
  obtain ⟨i, hd⟩ := exists_decode_ok_iff.mpr (by rcases h with h | h | h | h <;> rw [h] <;> decide)
  exact ⟨i, hd, (saturating_iff_command i).mpr (cmd_of_decode hd ▸ h)⟩

theorem answer_of_decode_error {r : Request} {c : IllegalCause} (h : decode r = .error c) (cfg : Config) :
    answer cfg r = .error c := by
  rw [answer, checked, h]

theorem answer_of_not_available {cfg : Config} {r : Request} {i : Instr} (h : decode r = .ok i)
    (hi : i.availableIn cfg = false) : answer cfg r = .error .satWithoutOvfCheck := by
  simp [answer, checked, h, hi]

theorem legalRequest_eq_false_iff {cfg : Config} {r : Request} :
    legalRequest cfg r = false ↔ ∃ c, answer cfg r = .error c := by
  unfold legalRequest answer
  cases checked cfg r <;> simp

/-- The last cycle of a request that is not legal puts the ILLEGAL response on the port (R150). -/
theorem cycle_of_due_illegal {s : State} {r : Request} {n : Nat} (h : s.phase = .computing r n)
    (hn : Config.latency r.cmd ≤ n + 1) (hr : legalRequest s.cfg r = false) : s.cycle = s.respondIllegal := by
  obtain ⟨c, ha⟩ := legalRequest_eq_false_iff.mp hr
  rw [cycle_of_due h hn.not_gt, presentAnswer_error (hardwareAnswer_error.mpr ha)]

/-! A block that is not computing. -/

theorem ne_computing_of_idle {p : Phase} (h : p = .idle) (q : Request) (n : Nat) : p ≠ .computing q n :=
  h ▸ Phase.noConfusion

theorem ne_computing_of_presenting {p : Phase} {r : Request} (h : p = .presenting r) (q : Request) (n : Nat) :
    p ≠ .computing q n :=
  h ▸ Phase.noConfusion

/-- With nothing waiting, a step takes the presented response, if any, and no more (R160). -/
theorem step_of_none {s : State} (h : ∀ q n, s.phase ≠ .computing q n) (hw : s.waiting = []) :
    step s = .next { s with phase := .idle } := by
  have hf := fetch_of_none h hw
  rw [← hf]
  exact step_of_idle (by rw [hf])

/-! Legal requests. -/

theorem onlyLegal_iff (s : State) :
    s.onlyLegal = true ↔ s.phase.legal s.cfg = true ∧ ∀ r ∈ s.waiting, legalRequest s.cfg r = true := by
  simp [State.onlyLegal]

/-- A request accepted from a legal queue is a legal one to compute. -/
theorem fetch_onlyLegal {s : State} (h : s.onlyLegal = true) : s.fetch.onlyLegal = true := by
  obtain ⟨-, hwaiting⟩ := (onlyLegal_iff s).mp h
  rcases fetch_cases s with ⟨-, hf⟩ | ⟨-, hf⟩ | ⟨r, rest, hw, hf⟩ <;> rw [hf]
  · exact h
  · exact (onlyLegal_iff _).mpr ⟨rfl, hwaiting⟩
  · exact (onlyLegal_iff _).mpr (List.forall_mem_cons.mp (hw ▸ hwaiting))

theorem answered_legal (cfg : Config) (p : Phase) : p.answered.legal cfg = true := by
  cases p <;> rfl

theorem respond_onlyLegal {s : State} (h : s.onlyLegal = true) (v : Word16) : (s.respond v).onlyLegal = true :=
  (onlyLegal_iff _).mpr ⟨answered_legal s.cfg s.phase, ((onlyLegal_iff s).mp h).2⟩

theorem legalRequest_of_onlyLegal {s : State} {r : Request} {n : Nat} (h : s.onlyLegal = true)
    (hp : s.phase = .computing r n) : legalRequest s.cfg r = true := by
  obtain ⟨hphase, -⟩ := (onlyLegal_iff s).mp h
  rwa [hp] at hphase

/-- Progress and preservation: a step over legal requests completes, and what is left is legal. -/
theorem step_of_onlyLegal {s : State} (h : s.onlyLegal = true) :
    ∃ t, step s = .next t ∧ t.onlyLegal = true ∧ t.cfg = s.cfg := by
  have hf := fetch_onlyLegal h
  rcases fetch_phase_cases s with hp | ⟨r, n, hp⟩
  · exact ⟨s.fetch, step_of_idle hp, hf, fetch_cfg s⟩
  · obtain ⟨v, ha⟩ := legalRequest_iff.mp (legalRequest_of_onlyLegal hf hp)
    rw [fetch_cfg] at ha
    exact ⟨s.fetch.respond v, by rw [step_of_computing hp, ha, State.concluded], respond_onlyLegal hf v, fetch_cfg s⟩

end Sys2Proof.Machine

/-! PROOFS. The statements of 60_exceptions.md. -/

section
open Sys2Proof Sys2Proof.Machine

/-- Settles O59, by induction on the length of the run: each step completes and leaves legal requests. -/
theorem legalRequestsNeverFault : Obligations.LegalRequestsNeverFault := by
  intro n s h
  induction n generalizing s with
  | zero => exact ⟨s, run_zero s, h, rfl⟩
  | succ n ih =>
    obtain ⟨u, hstep, hu, hcfg⟩ := step_of_onlyLegal h
    obtain ⟨t, hrun, ht, htcfg⟩ := ih u hu
    exact ⟨t, (run_succ_of_next hstep).trans hrun, ht, htcfg.trans hcfg⟩

/-- Settles O12: each cause is the answer to its requests, and a step faults with the cause it is answered (O16). -/
theorem illegalRequestsFault : Obligations.IllegalRequestsFault := by
  intro s r rest hp hw
  obtain ⟨-, hfault⟩ := stepAnswersTheNextRequest s r rest hp hw
  refine ⟨fun hrsv => hfault _ ?_, fun hop => hfault _ ?_, fun ⟨hsat, hc⟩ => hfault _ ?_⟩
  · exact answer_of_decode_error (decode_of_not_cmd_le (mt Request.rsvField_eq_zero_iff.mpr hrsv)) s.cfg
  · exact answer_of_decode_error (decode_of_reserved_code hop) s.cfg
  · obtain ⟨i, hd, hi⟩ := decode_of_saturating_code hsat
    exact answer_of_not_available hd (availableIn_eq_false_iff.mpr ⟨hc, hi⟩)

/-- Settles O19: `exec` faults exactly for an operation its configuration does not offer. -/
theorem onlySaturatingOperationsFault : Obligations.OnlySaturatingOperationsFault := by
  refine fun i s => ⟨fun f => ?_, exec_ne_refused i s⟩
  rw [exec_fault_iff, availableIn_eq_false_iff, saturating_iff]

/-- Settles O52: the ILLEGAL response leaves configuration and queue as they were, and a step reads nothing else of a
block that presents a response. -/
theorem illegalResponseLeavesTheNextRequestAlone : Obligations.IllegalResponseLeavesTheNextRequestAlone := by
  intro s r n hp hn hr
  have hphase : s.respondIllegal.phase = .presenting r := by rw [respondIllegal_phase, hp, answered_computing]
  rw [cycle_of_due_illegal hp hn hr]
  refine ⟨respondIllegal_ill s, hphase, respondIllegal_cfg s, respondIllegal_waiting s, fun q rest v hw ha => ?_⟩
  exact ⟨_, step_of_answer_ok (ne_computing_of_presenting hphase) hw ha, rfl, rfl, rfl⟩

/-- Settles O15: the next state is the idle block (`step_of_none`), in either phase. -/
theorem stepWithoutARequestIsIdle : Obligations.StepWithoutARequestIsIdle := by
  intro s hw
  constructor
  · intro hp
    rw [step_of_none (ne_computing_of_idle hp) hw, ← hp]
  · intro r hp
    exact step_of_none (ne_computing_of_presenting hp) hw

end

/-! PROOFS. The parameters along steps and events, and a request from acceptance to its response, cycle by cycle
(70_reset_and_hazards.md R173, R174, R176). -/

namespace Sys2Proof.Machine

/-! The parameters (R173). -/

theorem step_cfg {s t : State} (h : step s = .next t) : t.cfg = s.cfg := by
  rcases step_next h with ⟨rfl, -⟩ | ⟨r, n, v, -, -, rfl⟩
  · exact fetch_cfg s
  · exact (respond_cfg _ v).trans (fetch_cfg s)

theorem events_cfg (es : List Event) (s : State) : (State.events es s).cfg = s.cfg := by
  induction es generalizing s with
  | nil => rfl
  | cons e es ih => exact (ih (s.event e)).trans (event_cfg e s)

/-! A block that is busy, or has just been reset (R171, R172, R174). -/

theorem ne_idle_of_outstanding {p : Phase} {r : Request} (h : p.outstanding = some r) : p ≠ .idle := by
  rintro rfl
  cases h

/-- A presented response stands until it is taken. -/
theorem cycle_of_presenting {s : State} {r : Request} (h : s.phase = .presenting r) : s.cycle = s := by
  simp [State.cycle, h]

theorem accept_assertReset {s : State} {r : Request} {rest : List Request} (hw : s.waiting = r :: rest) :
    s.assertReset.accept = { s.assertReset with waiting := rest, phase := .computing r 0 } :=
  accept_of_waiting (assertReset_phase s) ((assertReset_waiting s).trans hw)

/-! From acceptance to the response (R174). -/

section
variable {s : State} {r : Request}

/-- Before LATENCY cycles have passed, they are counted and nothing else happens. -/
theorem cycles_of_lt_latency (h : s.phase = .computing r 0) {n : Nat} (hn : n < Config.latency r.cmd) :
    State.cycles n s = { s with phase := .computing r n } := by
  induction n with
  | zero => rw [cycles_zero, ← h]
  | succ n ih => rw [cycles_succ_last, ih (Nat.lt_of_succ_lt hn), cycle_of_early rfl hn]

/-- The answer does not depend on how long the request has been computed. -/
theorem presentAnswer_setElapsed {m : Nat} (h : s.phase = .computing r m) (n : Nat) :
    State.presentAnswer r { s with phase := .computing r n } = s.presentAnswer r := by
  unfold State.presentAnswer
  cases hardwareAnswer s.cfg r with
  | ok v => simp [State.respond, h]
  | error c => simp [State.respondIllegal, h]

/-- LATENCY cycles after acceptance the answer is presented, and LATENCY itself leaves no trace. -/
theorem cycles_latency (h : s.phase = .computing r 0) :
    State.cycles (Config.latency r.cmd) s = s.presentAnswer r := by
  have hearly : Config.extraCycles r.cmd < Config.latency r.cmd := Nat.lt_succ_self _
  rw [Config.latency, cycles_succ_last, cycles_of_lt_latency h hearly, cycle_of_due rfl (Nat.lt_irrefl _),
    presentAnswer_setElapsed h]

/-- Where a transaction completes, its state is the one in which the hardware presents the answer. -/
theorem presentAnswer_of_concluded_next {t : State} (h : s.concluded (answer s.cfg r) = .next t) :
    s.presentAnswer r = t := by
  rcases presentAnswer_cases r s with ⟨v, ha, hp⟩ | ⟨c, ha, -⟩ <;> rw [ha, State.concluded] at h
  · exact hp.trans (Host.Outcome.next.inj h)
  · cases h

/-- Where a transaction faults, the hardware presents the ILLEGAL response. -/
theorem presentAnswer_ill_of_concluded_fault {f : Fault} (h : s.concluded (answer s.cfg r) = .fault f) :
    (s.presentAnswer r).ill = true := by
  rcases presentAnswer_cases r s with ⟨v, ha, -⟩ | ⟨c, -, hp⟩
  · rw [ha, State.concluded] at h
    cases h
  · rw [hp, respondIllegal_ill]

end

end Sys2Proof.Machine

/-! PROOFS. The statements of 70_reset_and_hazards.md, and the notation of 00_scope.md section 5. -/

section
open Sys2Proof Sys2Proof.Machine

/-- Settles O20. -/
theorem nothingChangesTheConfiguration : Obligations.NothingChangesTheConfiguration :=
  ⟨fun _ _ => step_cfg, events_cfg⟩

/-- Settles O23: reset leaves the configuration and the waiting requests, and the response depends on nothing else
(O17). -/
theorem resetChangesNoResponse : Obligations.ResetChangesNoResponse := by
  intro s r rest hp hw
  exact responseDependsOnRequestAndConfigurationOnly s.assertReset s r rest rest (assertReset_cfg s)
    (ne_computing_of_idle (assertReset_phase s)) hp ((assertReset_waiting s).trans hw) hw

/-- Settles O51: both the step and the cycles start from the block that has just accepted `r` (`fetch_of_waiting`); the
cycles end in `presentAnswer` (`cycles_latency`), which is how the step concludes. -/
theorem stepIsExactForTheCycles : Obligations.StepIsExactForTheCycles := by
  intro s r rest hp hw u
  have hf : s.take.accept = { s with waiting := rest, phase := .computing r 0 } := fetch_of_waiting hp hw
  have hphase : s.take.accept.phase = .computing r 0 := by rw [hf]
  have hu : u = s.take.accept.presentAnswer r := cycles_latency hphase
  have hstep : step s = s.take.accept.concluded (answer s.take.accept.cfg r) := by
    rw [hf]
    exact step_of_waiting hp hw
  rw [hu, hstep]
  refine ⟨fun n hn => ?_, ?_, ?_, ?_, fun t => presentAnswer_of_concluded_next,
    fun f => presentAnswer_ill_of_concluded_fault⟩
  · rw [cycles_of_lt_latency hphase hn]
  · rw [presentAnswer_phase, hphase, answered_computing]
  · rw [presentAnswer_cfg, accept_cfg, take_cfg]
  · rw [presentAnswer_waiting, hf]

/-- Settles O22. -/
theorem resetLeavesTheBlockIdle : Obligations.ResetLeavesTheBlockIdle :=
  ⟨rfl, rfl, fun s => ⟨assertReset_phase s, assertReset_cfg s, assertReset_waiting s, outstanding_idle,
    fun _ _ hw => congrArg State.phase (accept_assertReset hw)⟩⟩

/-- Settles O50. -/
theorem busyBlockAcceptsNothing : Obligations.BusyBlockAcceptsNothing :=
  fun _ _ => ⟨fun _ hq => accept_of_busy (ne_idle_of_outstanding hq), rfl, fun _ _ => take_of_computing,
    fun _ hp => ⟨take_of_presenting hp, cycle_of_presenting hp⟩⟩

/-- Settles O53: `closedBy_reset` says what reset closes. -/
theorem resetAbandonsTheOutstandingRequest : Obligations.ResetAbandonsTheOutstandingRequest :=
  fun t => ⟨congrArg (t.closed ++ ·) (closedBy_reset t.st), assertReset_phase t.st, List.append_nil t.offered⟩

/-- Settles O55: nothing is offered, closed or pending, and an idle block is coherent. -/
theorem startingTraceIsFaithful : Obligations.StartingTraceIsFaithful :=
  fun cfg => (faithful_iff (Trace.start cfg)).mpr ⟨rfl, rfl, coherent_of_idle rfl⟩

/-- Settles O57: an idle block is coherent. -/
theorem resetIsCoherent : Obligations.ResetIsCoherent :=
  ⟨coherent_of_idle rfl, assertReset_coherent⟩

/-- Settles O1, a clause for each primitive. -/
theorem wordPrimitives : Obligations.WordPrimitives := by
  intro v n
  refine ⟨?_, ?_, ?_, by decide⟩
  · rw [getLsbD_15, s16_eq]
  · rw [u16, BitVec.toNat_ofInt]
    exact Int.toNat_of_nonneg (Int.emod_nonneg n (by norm_num))
  · rw [absU16_toNat, abs_s16]

end
